-- ==== Sys2Proof/Word.lean ====
section
/-! DEFINITION. The two widths of the core (00_scope.md R7): bytes and 16-bit words. -/

namespace Sys2Proof

/-- An 8-bit value (R7, R11): a register, an opcode, a byte of memory. -/
abbrev Byte := BitVec 8

/-- A 16-bit value (R7, R11): `SP`, `PC`, a register pair, an Address. -/
abbrev Word := BitVec 16

end Sys2Proof
end

