-- ==== Sys2Proof/Config.lean ====
section
/-! DEFINITION. The implementation parameters of 00_scope.md R9. -/

namespace Sys2Proof

/-- `MEM_SIZE`, the number of bytes of memory (R8, D1). Log entry 5. -/
def Config.memSize : Nat := 65536

/-- `PC` at construction, before any seeding by the host (R41, R231). -/
def Config.initialPc : Word := 0x0000#16

/-- `CYCLES(opcode)`, the cycle count a decoded instruction carries (R72, R236).
The spec gives no value and no rule reads it (D11): an open parameter, so no value can be proved of
it. DESIGN CHOICE (safe), log entry 1. -/
opaque Config.cycles : Byte → Nat

end Sys2Proof
end

