-- ==== Sys2Proof/Types.lean ====
section
/-! DEFINITION. The closed enumerations of the spec beside the instruction rows: register
identifiers (R26), operands (R71), decoded instruction kinds (R72) and failures (R200). -/

namespace Sys2Proof

/-- The 8-bit register identifiers (R26). -/
inductive Reg8 where
  | a | f | b | c | d | e | h | l
deriving DecidableEq, Repr

/-- The 16-bit register identifiers (R26): four pairs, which are views (R22), and `SP`, `PC` (R25). -/
inductive Reg16 where
  | af | bc | de | hl | sp | pc
deriving DecidableEq, Repr

/-- The operand kinds (R71): descriptors, resolved when the instruction executes. -/
inductive Operand where
  | reg8 (r : Reg8)
  | reg16 (rr : Reg16)
  | immediate8
  | immediate16
deriving DecidableEq, Repr

/-- `FollowUp` (R72): applied to the address register after a load completes. -/
inductive Followup where
  | increment16 | decrement16
deriving DecidableEq, Repr

/-- The kinds of a decoded instruction (R72). `arithmetic` is the placeholder `Arithmetic(reserved)`,
which the decoder never produces (R75). -/
inductive Kind where
  | load (src dest : Operand) (followup : Option Followup)
  | increment (o : Operand)
  | decrement (o : Operand)
  | noOp
  | halt
  | arithmetic
deriving DecidableEq, Repr

/-- A decoded instruction `{ kind, cycles }` (R72). -/
structure Decoded where
  kind : Kind
  cycles : Nat
deriving DecidableEq, Repr

/-- The kind names that `UnsupportedInstruction` carries (R200, D17): those the executor raises it
with (R108, R109, R110, R113). -/
inductive KindName where
  | load | increment | decrement | arithmetic
deriving DecidableEq, Repr

/-- The requested width that `FetchError` carries (R200). -/
inductive Width where
  | byte | word
deriving DecidableEq, Repr

/-- The failures of R200, with their payloads. Raising one ends the step with the run state
`Faulted(e)` (R102). DESIGN CHOICE (safe) for the payload types (D17), log entry 8. -/
inductive Failure where
  /-- `MemoryOverflow` (R202): an access whose range exceeds the memory. -/
  | memoryOverflow (addr : Word) (len : Nat)
  /-- `DecodeError.Unmatched` (R77, R201): the opcode and its five fields. -/
  | unmatched (opcode : Byte) (x : BitVec 2) (y z : BitVec 3) (p : BitVec 2) (q : BitVec 1)
  /-- `DecodeError.InvalidIndex` (R81, R201): no step of this core raises it. -/
  | invalidIndex (opcode : Byte)
  /-- `FetchError` (R203): an operand resolved at a width its kind does not support. -/
  | fetchError (operand : Operand) (width : Width)
  /-- `UnsupportedInstruction` (R204). -/
  | unsupported (kind : KindName)
deriving DecidableEq, Repr

end Sys2Proof
end

