-- ==== Sys2Proof/Machine/State.lean ====
section
/-! DEFINITION. The state of the core (10_state.md R40), its reset value (R41), and the reasons a
step can end without a next state. -/

namespace Sys2Proof.Machine

/-- The memory `M` (R38, R50): the bytes that differ from 0x00, by address, in the canonical form
`Memory.wf`. An address not listed reads as 0x00, its construction value (R41).
DESIGN CHOICE (safe), log entry 2. -/
abbrev Memory := List Host.Cell

/-- The run state (R36). -/
inductive RunState where
  | running
  | halted
  | faulted (e : Failure)
deriving DecidableEq, Repr

/-- The complete state of the core (R40): "Nothing else is state." The register pairs are views of
the 8-bit registers, not storage (R22). -/
structure State where
  a : Byte
  f : Byte
  b : Byte
  c : Byte
  d : Byte
  e : Byte
  h : Byte
  l : Byte
  sp : Word
  pc : Word
  mem : Memory
  run : RunState
deriving DecidableEq, Repr

/-- Why a step answers no next state: the core has no step in a terminal run state (R101, D2).
DESIGN CHOICE (safe), log entry 4. -/
inductive Fault where
  /-- Raised by `step` in the run state `Halted`: "both are terminal" (R101, R192). Safe: the model
  has no step where the spec gives none. -/
  | halted
  /-- Raised by `step` in the run state `Faulted(e)` (R101, R210). Safe, as for `halted`. -/
  | faulted (e : Failure)
deriving DecidableEq, Repr

/-- Refusals. No meaning and no step of this model raises one. -/
inductive Refusal where
  /-- An instruction whose meaning is not written; raised by no arm of `exec`. Safe. -/
  | notModelled (mnemonic : String)
deriving DecidableEq, Repr

/-- The state at construction, the core's only reset (R41, R230). -/
def State.reset : State :=
  { a := 0x00#8, f := 0x00#8, b := 0x00#8, c := 0x00#8, d := 0x00#8, e := 0x00#8, h := 0x00#8,
    l := 0x00#8, sp := 0x0000#16, pc := Config.initialPc, mem := [], run := .running }

end Sys2Proof.Machine
end

