-- ==== Sys2Proof/Machine/Ops.lean ====
section
/-! DEFINITION. The named operations over registers and memory, and raising a failure. -/

namespace Sys2Proof.Machine

/-! ### Bytes of a word (R11, R22) -/

/-- `v[15:8]`. -/
def hiByte (v : Word) : Byte := v.extractLsb' 8 8

/-- `v[7:0]`. -/
def loByte (v : Word) : Byte := v.extractLsb' 0 8

/-- `hi:lo`, that is `(hi << 8) | lo` (R11). -/
def joinBytes (hi lo : Byte) : Word := hi ++ lo

/-! ### Sub-operations that may fail (R14, R15) -/

/-- The result of a sub-operation: a value and the state after it, or a failure and the state it
leaves, in which the writes of earlier sub-operations are kept (R102, D3). -/
inductive Res (α : Type) where
  | ok (v : α) (s : State)
  | fail (e : Failure) (s : State)
deriving DecidableEq, Repr

/-- One sub-operation after another: a failure ends the sequence (R14), and a later one sees every
write of an earlier one (R15). -/
def andThen {α β : Type} (r : Res α) (k : α → State → Res β) : Res β :=
  match r with
  | .ok v s => k v s
  | .fail e s => .fail e s

/-! ### The register file (10_state.md R20-R28) -/

/-- `R8[r]` (R12, R26): pure, no failure mode. -/
def State.getReg8 (s : State) (r : Reg8) : Byte :=
  match r with
  | .a => s.a
  | .f => s.f
  | .b => s.b
  | .c => s.c
  | .d => s.d
  | .e => s.e
  | .h => s.h
  | .l => s.l

/-- `R8[r] <- v` (R12, R21): any byte is stored without change, for `F` too (C3, D13). -/
def State.setReg8 (s : State) (r : Reg8) (v : Byte) : State :=
  match r with
  | .a => { s with a := v }
  | .f => { s with f := v }
  | .b => { s with b := v }
  | .c => { s with c := v }
  | .d => { s with d := v }
  | .e => { s with e := v }
  | .h => { s with h := v }
  | .l => { s with l := v }

/-- `R16[rr]` (R12): a pair is its two halves as they are at that instant, the first-named high
(R22, R23); `SP` and `PC` are registers of their own (R25). -/
def State.getReg16 (s : State) (rr : Reg16) : Word :=
  match rr with
  | .af => joinBytes s.a s.f
  | .bc => joinBytes s.b s.c
  | .de => joinBytes s.d s.e
  | .hl => joinBytes s.h s.l
  | .sp => s.sp
  | .pc => s.pc

/-- `R16[rr] <- v` (R12): a pair write writes both halves as one update (R24); `SP` and `PC` store
`v` whole (R25). -/
def State.setReg16 (s : State) (rr : Reg16) (v : Word) : State :=
  match rr with
  | .af => { s with a := hiByte v, f := loByte v }
  | .bc => { s with b := hiByte v, c := loByte v }
  | .de => { s with d := hiByte v, e := loByte v }
  | .hl => { s with h := hiByte v, l := loByte v }
  | .sp => { s with sp := v }
  | .pc => { s with pc := v }

/-- `Increment(r8)` (R27): wraps modulo 2^8. -/
def State.incReg8 (s : State) (r : Reg8) : State := s.setReg8 r (s.getReg8 r + 1#8)

/-- `Decrement(r8)` (R27): wraps modulo 2^8. -/
def State.decReg8 (s : State) (r : Reg8) : State := s.setReg8 r (s.getReg8 r - 1#8)

/-- `Increment(rr)` (R27): wraps modulo 2^16; on a pair both halves are written. -/
def State.incReg16 (s : State) (rr : Reg16) : State := s.setReg16 rr (s.getReg16 rr + 1#16)

/-- `Decrement(rr)` (R27): wraps modulo 2^16; on a pair both halves are written. -/
def State.decReg16 (s : State) (rr : Reg16) : State := s.setReg16 rr (s.getReg16 rr - 1#16)

/-- `run <- r` (R36). -/
def State.setRun (s : State) (r : RunState) : State := { s with run := r }

/-- The state with memory `m`. -/
def State.setMem (s : State) (m : Memory) : State := { s with mem := m }

/-! ### The memory array (20_memory.md R50) -/

/-- The canonical form: addresses strictly rising and inside the memory, no byte listed that an
unlisted address reads as. -/
abbrev Memory.wf (m : Memory) : Prop :=
  m.Pairwise (fun x y => x.1 < y.1) ∧ ∀ x ∈ m, x.1 < Config.memSize ∧ x.2 ≠ 0x00#8

/-- `M[a]`: an unlisted address reads as 0x00 (R41). -/
def Memory.read : Memory → Nat → Byte
  | [], _ => 0x00#8
  | cell :: m, a => if cell.1 = a then cell.2 else Memory.read m a

/-- The memory with the byte `v` listed at `a`, in address order. -/
def Memory.insert : Memory → Nat → Byte → Memory
  | [], a, v => [(a, v)]
  | cell :: m, a, v =>
      if a < cell.1 then (a, v) :: cell :: m else cell :: Memory.insert m a v

/-- The memory with nothing listed at `a`. -/
def Memory.erase (m : Memory) (a : Nat) : Memory := m.filter (fun cell => cell.1 != a)

/-- `M[a] <- v`, in the canonical form. -/
def Memory.write (m : Memory) (a : Nat) (v : Byte) : Memory :=
  if v = 0x00#8 then m.erase a else (m.erase a).insert a v

/-- `M[a + i] <- bytes[i]` for each `i` in order (R52). -/
def Memory.writeList : Memory → Nat → List Byte → Memory
  | m, _, [] => m
  | m, a, v :: vs => Memory.writeList (m.write a v) (a + 1) vs

/-- `M[a], M[a+1], ..., M[a+n-1]` in that order (R51). -/
def Memory.readList : Memory → Nat → Nat → List Byte
  | _, _, 0 => []
  | m, a, n + 1 => m.read a :: Memory.readList m (a + 1) n

/-- The byte at an Address: the model's read of one byte (R50, R60: the Address is the index). -/
def State.byteAt (s : State) (a : Word) : Byte := s.mem.read a.toNat

/-! ### The access primitives (R51, R52, R202)

A failed access answers the failure and leaves the whole state as it was. Within a step `finish` raises
that failure (R102). Outside a step, in a host's access (R215), nothing raises it: the run state stays as
it was. DESIGN CHOICE, log entry 12: R51 and R52 write `raise`, whose meaning R14 and R102 give for a
step only, and R52 says of a failed write only that `M` is unchanged. Unsafe if the software faults the
core there. -/

/-- `MemRead(addr, 1)`, `read_byte` (R51): fails if `addr ≥ size` (never, R57); changes no state. -/
def readByte (addr : Word) (s : State) : Res Byte :=
  if addr.toNat ≥ Config.memSize then .fail (.memoryOverflow addr 1) s
  else .ok (s.byteAt addr) s

/-- `MemWrite(addr, 1, v)`, `write_byte` (R52): same failure, checked before the byte is written. -/
def writeByte (addr : Word) (v : Byte) (s : State) : Res Unit :=
  if addr.toNat ≥ Config.memSize then .fail (.memoryOverflow addr 1) s
  else .ok () (s.setMem (s.mem.write addr.toNat v))

/-- `MemRead(addr, n)`, `read` (R51): the sum is taken without wrap-around. A host's read that fails
leaves the run state too as it was. DESIGN CHOICE (unsafe), log entry 12. -/
def memRead (addr : Word) (n : Nat) (s : State) : Res (List Byte) :=
  if addr.toNat + n > Config.memSize then .fail (.memoryOverflow addr n) s
  else .ok (s.mem.readList addr.toNat n) s

/-- `MemWrite(addr, n, bytes)`, `write` (R52): all or nothing, the check before any byte. A host's write
that fails leaves the run state too as it was. DESIGN CHOICE (unsafe), log entry 12. -/
def memWrite (addr : Word) (bytes : List Byte) (s : State) : Res Unit :=
  if addr.toNat + bytes.length > Config.memSize then .fail (.memoryOverflow addr bytes.length) s
  else .ok () (s.setMem (s.mem.writeList addr.toNat bytes))

/-! ### Reading at PC (R30, R31) -/

/-- One byte at `PC`, then `PC <- wrap_16(PC + 1)`: the opcode fetch (R100) and the fetch of an
immediate byte (R106). -/
def fetchByte (s : State) : Res Byte :=
  andThen (readByte s.pc s) fun v s1 => .ok v (s1.incReg16 .pc)

/-! ### Raising a failure (R14, R102, R208) -/

/-- `raise e`: the run state becomes `Faulted(e)`. The core jumps nowhere and saves nothing (R208),
and the writes made before are kept (R102). There is no return from it inside the core (R210); the
host's `resume` is in Machine/HostOps.lean (R216). DEDUCED (safe for decoded instructions, unsafe for
hand-built ones), log entry 3. -/
def raiseFailure (e : Failure) (s : State) : State := s.setRun (.faulted e)

/-- The failure's number in the table of R200, a label on which no behaviour depends (D17). -/
def failureCode (e : Failure) : Nat :=
  match e with
  | .memoryOverflow _ _ => 0
  | .unmatched _ _ _ _ _ _ => 1
  | .invalidIndex _ => 2
  | .fetchError _ _ => 3
  | .unsupported _ => 4

/-- How a sub-operation ends its step: a failure is raised; the step has a next state either way
(R102, R104). -/
def finish (r : Res Unit) : Host.Outcome State Fault Refusal :=
  match r with
  | .ok _ s => .next s
  | .fail e s => .next (raiseFailure e s)

end Sys2Proof.Machine
end

