-- ==== Sys2Proof/Machine/Operands.lean ====
section
/-! DEFINITION. Resolving operands to values (40_execution.md R106, R107). -/

namespace Sys2Proof.Machine

/-- `ResolveByte` (R106): a `Reg16` operand is dereferenced as a pointer (R28, C7). -/
def resolveByte (o : Operand) (s : State) : Res Byte :=
  match o with
  | .reg8 r => .ok (s.getReg8 r) s
  | .reg16 rr => readByte (s.getReg16 rr) s
  | .immediate8 => fetchByte s
  | .immediate16 => .fail (.fetchError .immediate16 .byte) s

/-- `ResolveWord` (R107): a `Reg16` operand is the register itself (C7); a 16-bit immediate is two
byte reads, the low byte first, with `PC` wrapping between them (C5, D7). -/
def resolveWord (o : Operand) (s : State) : Res Word :=
  match o with
  | .reg16 rr => .ok (s.getReg16 rr) s
  | .immediate16 =>
      andThen (fetchByte s) fun lo s1 =>
        andThen (fetchByte s1) fun hi s2 => .ok (joinBytes hi lo) s2
  | .reg8 r => .fail (.fetchError (.reg8 r) .word) s
  | .immediate8 => .fail (.fetchError .immediate8 .word) s

end Sys2Proof.Machine
end

