-- ==== Sys2Proof/Machine/Executor.lean ====
section
/-! DEFINITION. Applying a decoded instruction (40_execution.md R108-R114), total on every kind,
those the decoder never produces among them (D4-D6). -/

namespace Sys2Proof.Machine

/-- The register file operation of a followup (R109, R27). -/
def followupReg16 (fu : Followup) (rr : Reg16) (s : State) : State :=
  match fu with
  | .increment16 => s.incReg16 rr
  | .decrement16 => s.decReg16 rr

/-- `ApplyFollowup` (R109): on the destination's register if it is a `Reg16`, else the source's, else
a failure (D5). -/
def applyFollowup (src dest : Operand) (fu : Followup) (s : State) : Res Unit :=
  match dest, src with
  | .reg16 rr, _ => .ok () (followupReg16 fu rr s)
  | _, .reg16 rr => .ok () (followupReg16 fu rr s)
  | _, _ => .fail (.unsupported .load) s

/-- The write of a load (R108): the kind of `dest` is examined first (C4, D4), then `src` is resolved,
then the address of a memory destination is read. -/
def applyMove (src dest : Operand) (s : State) : Res Unit :=
  match dest with
  | .reg8 r => andThen (resolveByte src s) fun v s1 => .ok () (s1.setReg8 r v)
  | .reg16 rr => andThen (resolveByte src s) fun v s1 => writeByte (s1.getReg16 rr) v s1
  | .immediate8 => .fail (.unsupported .load) s
  | .immediate16 => .fail (.unsupported .load) s

/-- `ExecLoad` (R108): the write, then the followup if there is one. -/
def applyLoad (src dest : Operand) (followup : Option Followup) (s : State) : Res Unit :=
  match followup with
  | none => applyMove src dest s
  | some fu => andThen (applyMove src dest s) fun _ s1 => applyFollowup src dest fu s1

/-- `ExecInc` (R110): a `Reg16` operand is the register itself, not memory at its address. -/
def applyIncrement (o : Operand) (s : State) : Res Unit :=
  match o with
  | .reg16 rr => .ok () (s.incReg16 rr)
  | .reg8 r => .ok () (s.incReg8 r)
  | .immediate8 => .fail (.unsupported .increment) s
  | .immediate16 => .fail (.unsupported .increment) s

/-- `ExecDec` (R110). -/
def applyDecrement (o : Operand) (s : State) : Res Unit :=
  match o with
  | .reg16 rr => .ok () (s.decReg16 rr)
  | .reg8 r => .ok () (s.decReg8 r)
  | .immediate8 => .fail (.unsupported .decrement) s
  | .immediate16 => .fail (.unsupported .decrement) s

/-- `NoOp`: "no effect" (R111). -/
def applyNoOp (s : State) : Res Unit := .ok () s

/-- `Halt`: sets `run <- Halted` and changes nothing else (R112). -/
def applyHalt (s : State) : Res Unit := .ok () (s.setRun .halted)

/-- `Arithmetic(reserved)` (R113). -/
def applyArithmetic (s : State) : Res Unit := .fail (.unsupported .arithmetic) s

/-- `Execute` (R114): the dispatch on the kind. -/
def execute (k : Kind) (s : State) : Res Unit :=
  match k with
  | .load src dest followup => applyLoad src dest followup s
  | .increment o => applyIncrement o s
  | .decrement o => applyDecrement o s
  | .noOp => applyNoOp s
  | .halt => applyHalt s
  | .arithmetic => applyArithmetic s

end Sys2Proof.Machine
end

