-- ==== Sys2Proof/Machine/IncDec16.lean ====
section
/-! DEFINITION. 16-bit increment and decrement (42_inc_dec16.md R170-R177).
Each meaning is the executor's operation for what the row decodes to, run after the opcode fetch, so
`PC` already stands one past the opcode (40_execution.md R100). -/

namespace Sys2Proof.Machine

/-- `INC BC` (R170). -/
def execIncBc (s : State) : Host.Outcome State Fault Refusal :=
  finish (applyIncrement (.reg16 .bc) s)

/-- `DEC BC` (R171). -/
def execDecBc (s : State) : Host.Outcome State Fault Refusal :=
  finish (applyDecrement (.reg16 .bc) s)

/-- `INC DE` (R172). -/
def execIncDe (s : State) : Host.Outcome State Fault Refusal :=
  finish (applyIncrement (.reg16 .de) s)

/-- `DEC DE` (R173). -/
def execDecDe (s : State) : Host.Outcome State Fault Refusal :=
  finish (applyDecrement (.reg16 .de) s)

/-- `INC HL` (R174). -/
def execIncHl (s : State) : Host.Outcome State Fault Refusal :=
  finish (applyIncrement (.reg16 .hl) s)

/-- `DEC HL` (R175). -/
def execDecHl (s : State) : Host.Outcome State Fault Refusal :=
  finish (applyDecrement (.reg16 .hl) s)

/-- `INC SP` (R176). -/
def execIncSp (s : State) : Host.Outcome State Fault Refusal :=
  finish (applyIncrement (.reg16 .sp) s)

/-- `DEC SP` (R177). -/
def execDecSp (s : State) : Host.Outcome State Fault Refusal :=
  finish (applyDecrement (.reg16 .sp) s)

end Sys2Proof.Machine
end

