-- ==== Sys2Proof/Machine/LoadsImmediate.lean ====
section
/-! DEFINITION. The loads of an 8-bit immediate, x=0, z=6 (41_loads.md R142, R143).
Each meaning is the executor's operation for what the row decodes to, run after the opcode fetch, so
`PC` already stands one past the opcode (40_execution.md R100). -/

namespace Sys2Proof.Machine

/-- `LD B,n` (R142). -/
def execLdBN (s : State) : Host.Outcome State Fault Refusal :=
  finish (applyLoad .immediate8 (.reg8 .b) none s)

/-- `LD C,n` (R142). -/
def execLdCN (s : State) : Host.Outcome State Fault Refusal :=
  finish (applyLoad .immediate8 (.reg8 .c) none s)

/-- `LD D,n` (R142). -/
def execLdDN (s : State) : Host.Outcome State Fault Refusal :=
  finish (applyLoad .immediate8 (.reg8 .d) none s)

/-- `LD E,n` (R142). -/
def execLdEN (s : State) : Host.Outcome State Fault Refusal :=
  finish (applyLoad .immediate8 (.reg8 .e) none s)

/-- `LD H,n` (R142). -/
def execLdHN (s : State) : Host.Outcome State Fault Refusal :=
  finish (applyLoad .immediate8 (.reg8 .h) none s)

/-- `LD L,n` (R142). -/
def execLdLN (s : State) : Host.Outcome State Fault Refusal :=
  finish (applyLoad .immediate8 (.reg8 .l) none s)

/-- `LD (HL),n` (R143). -/
def execLdMemHlN (s : State) : Host.Outcome State Fault Refusal :=
  finish (applyLoad .immediate8 (.reg16 .hl) none s)

/-- `LD A,n` (R142). -/
def execLdAN (s : State) : Host.Outcome State Fault Refusal :=
  finish (applyLoad .immediate8 (.reg8 .a) none s)

end Sys2Proof.Machine
end

