-- ==== Sys2Proof/Machine/LoadsIndirect.lean ====
section
/-! DEFINITION. The loads between `A` and memory through `BC`, `DE`, `HL+` and `HL-` (41_loads.md R130-R137).
Each meaning is the executor's operation for what the row decodes to, run after the opcode fetch, so
`PC` already stands one past the opcode (40_execution.md R100). -/

namespace Sys2Proof.Machine

/-- `LD (BC),A` (R130). -/
def execLdMemBcA (s : State) : Host.Outcome State Fault Refusal :=
  finish (applyLoad (.reg8 .a) (.reg16 .bc) none s)

/-- `LD A,(BC)` (R131). -/
def execLdAMemBc (s : State) : Host.Outcome State Fault Refusal :=
  finish (applyLoad (.reg16 .bc) (.reg8 .a) none s)

/-- `LD (DE),A` (R132). -/
def execLdMemDeA (s : State) : Host.Outcome State Fault Refusal :=
  finish (applyLoad (.reg8 .a) (.reg16 .de) none s)

/-- `LD A,(DE)` (R133). -/
def execLdAMemDe (s : State) : Host.Outcome State Fault Refusal :=
  finish (applyLoad (.reg16 .de) (.reg8 .a) none s)

/-- `LD (HL+),A` (R134). -/
def execLdMemHlIncA (s : State) : Host.Outcome State Fault Refusal :=
  finish (applyLoad (.reg8 .a) (.reg16 .hl) (some .increment16) s)

/-- `LD A,(HL+)` (R135). -/
def execLdAMemHlInc (s : State) : Host.Outcome State Fault Refusal :=
  finish (applyLoad (.reg16 .hl) (.reg8 .a) (some .increment16) s)

/-- `LD (HL-),A` (R136). -/
def execLdMemHlDecA (s : State) : Host.Outcome State Fault Refusal :=
  finish (applyLoad (.reg8 .a) (.reg16 .hl) (some .decrement16) s)

/-- `LD A,(HL-)` (R137). -/
def execLdAMemHlDec (s : State) : Host.Outcome State Fault Refusal :=
  finish (applyLoad (.reg16 .hl) (.reg8 .a) (some .decrement16) s)

end Sys2Proof.Machine
end

