-- ==== Sys2Proof/Machine/LoadsRegister.lean ====
section
/-! DEFINITION. The register-to-register and register-memory loads, x=1 (41_loads.md R138-R141).
Each meaning is the executor's operation for what the row decodes to, run after the opcode fetch, so
`PC` already stands one past the opcode (40_execution.md R100). -/

namespace Sys2Proof.Machine

/-- `LD B,B` (R139). -/
def execLdBB (s : State) : Host.Outcome State Fault Refusal :=
  finish (applyNoOp s)

/-- `LD B,C` (R138). -/
def execLdBC (s : State) : Host.Outcome State Fault Refusal :=
  finish (applyLoad (.reg8 .c) (.reg8 .b) none s)

/-- `LD B,D` (R138). -/
def execLdBD (s : State) : Host.Outcome State Fault Refusal :=
  finish (applyLoad (.reg8 .d) (.reg8 .b) none s)

/-- `LD B,E` (R138). -/
def execLdBE (s : State) : Host.Outcome State Fault Refusal :=
  finish (applyLoad (.reg8 .e) (.reg8 .b) none s)

/-- `LD B,H` (R138). -/
def execLdBH (s : State) : Host.Outcome State Fault Refusal :=
  finish (applyLoad (.reg8 .h) (.reg8 .b) none s)

/-- `LD B,L` (R138). -/
def execLdBL (s : State) : Host.Outcome State Fault Refusal :=
  finish (applyLoad (.reg8 .l) (.reg8 .b) none s)

/-- `LD B,(HL)` (R140). -/
def execLdBMemHl (s : State) : Host.Outcome State Fault Refusal :=
  finish (applyLoad (.reg16 .hl) (.reg8 .b) none s)

/-- `LD B,A` (R138). -/
def execLdBA (s : State) : Host.Outcome State Fault Refusal :=
  finish (applyLoad (.reg8 .a) (.reg8 .b) none s)

/-- `LD C,B` (R138). -/
def execLdCB (s : State) : Host.Outcome State Fault Refusal :=
  finish (applyLoad (.reg8 .b) (.reg8 .c) none s)

/-- `LD C,C` (R139). -/
def execLdCC (s : State) : Host.Outcome State Fault Refusal :=
  finish (applyNoOp s)

/-- `LD C,D` (R138). -/
def execLdCD (s : State) : Host.Outcome State Fault Refusal :=
  finish (applyLoad (.reg8 .d) (.reg8 .c) none s)

/-- `LD C,E` (R138). -/
def execLdCE (s : State) : Host.Outcome State Fault Refusal :=
  finish (applyLoad (.reg8 .e) (.reg8 .c) none s)

/-- `LD C,H` (R138). -/
def execLdCH (s : State) : Host.Outcome State Fault Refusal :=
  finish (applyLoad (.reg8 .h) (.reg8 .c) none s)

/-- `LD C,L` (R138). -/
def execLdCL (s : State) : Host.Outcome State Fault Refusal :=
  finish (applyLoad (.reg8 .l) (.reg8 .c) none s)

/-- `LD C,(HL)` (R140). -/
def execLdCMemHl (s : State) : Host.Outcome State Fault Refusal :=
  finish (applyLoad (.reg16 .hl) (.reg8 .c) none s)

/-- `LD C,A` (R138). -/
def execLdCA (s : State) : Host.Outcome State Fault Refusal :=
  finish (applyLoad (.reg8 .a) (.reg8 .c) none s)

/-- `LD D,B` (R138). -/
def execLdDB (s : State) : Host.Outcome State Fault Refusal :=
  finish (applyLoad (.reg8 .b) (.reg8 .d) none s)

/-- `LD D,C` (R138). -/
def execLdDC (s : State) : Host.Outcome State Fault Refusal :=
  finish (applyLoad (.reg8 .c) (.reg8 .d) none s)

/-- `LD D,D` (R139). -/
def execLdDD (s : State) : Host.Outcome State Fault Refusal :=
  finish (applyNoOp s)

/-- `LD D,E` (R138). -/
def execLdDE (s : State) : Host.Outcome State Fault Refusal :=
  finish (applyLoad (.reg8 .e) (.reg8 .d) none s)

/-- `LD D,H` (R138). -/
def execLdDH (s : State) : Host.Outcome State Fault Refusal :=
  finish (applyLoad (.reg8 .h) (.reg8 .d) none s)

/-- `LD D,L` (R138). -/
def execLdDL (s : State) : Host.Outcome State Fault Refusal :=
  finish (applyLoad (.reg8 .l) (.reg8 .d) none s)

/-- `LD D,(HL)` (R140). -/
def execLdDMemHl (s : State) : Host.Outcome State Fault Refusal :=
  finish (applyLoad (.reg16 .hl) (.reg8 .d) none s)

/-- `LD D,A` (R138). -/
def execLdDA (s : State) : Host.Outcome State Fault Refusal :=
  finish (applyLoad (.reg8 .a) (.reg8 .d) none s)

/-- `LD E,B` (R138). -/
def execLdEB (s : State) : Host.Outcome State Fault Refusal :=
  finish (applyLoad (.reg8 .b) (.reg8 .e) none s)

/-- `LD E,C` (R138). -/
def execLdEC (s : State) : Host.Outcome State Fault Refusal :=
  finish (applyLoad (.reg8 .c) (.reg8 .e) none s)

/-- `LD E,D` (R138). -/
def execLdED (s : State) : Host.Outcome State Fault Refusal :=
  finish (applyLoad (.reg8 .d) (.reg8 .e) none s)

/-- `LD E,E` (R139). -/
def execLdEE (s : State) : Host.Outcome State Fault Refusal :=
  finish (applyNoOp s)

/-- `LD E,H` (R138). -/
def execLdEH (s : State) : Host.Outcome State Fault Refusal :=
  finish (applyLoad (.reg8 .h) (.reg8 .e) none s)

/-- `LD E,L` (R138). -/
def execLdEL (s : State) : Host.Outcome State Fault Refusal :=
  finish (applyLoad (.reg8 .l) (.reg8 .e) none s)

/-- `LD E,(HL)` (R140). -/
def execLdEMemHl (s : State) : Host.Outcome State Fault Refusal :=
  finish (applyLoad (.reg16 .hl) (.reg8 .e) none s)

/-- `LD E,A` (R138). -/
def execLdEA (s : State) : Host.Outcome State Fault Refusal :=
  finish (applyLoad (.reg8 .a) (.reg8 .e) none s)

/-- `LD H,B` (R138). -/
def execLdHB (s : State) : Host.Outcome State Fault Refusal :=
  finish (applyLoad (.reg8 .b) (.reg8 .h) none s)

/-- `LD H,C` (R138). -/
def execLdHC (s : State) : Host.Outcome State Fault Refusal :=
  finish (applyLoad (.reg8 .c) (.reg8 .h) none s)

/-- `LD H,D` (R138). -/
def execLdHD (s : State) : Host.Outcome State Fault Refusal :=
  finish (applyLoad (.reg8 .d) (.reg8 .h) none s)

/-- `LD H,E` (R138). -/
def execLdHE (s : State) : Host.Outcome State Fault Refusal :=
  finish (applyLoad (.reg8 .e) (.reg8 .h) none s)

/-- `LD H,H` (R139). -/
def execLdHH (s : State) : Host.Outcome State Fault Refusal :=
  finish (applyNoOp s)

/-- `LD H,L` (R138). -/
def execLdHL (s : State) : Host.Outcome State Fault Refusal :=
  finish (applyLoad (.reg8 .l) (.reg8 .h) none s)

/-- `LD H,(HL)` (R140). -/
def execLdHMemHl (s : State) : Host.Outcome State Fault Refusal :=
  finish (applyLoad (.reg16 .hl) (.reg8 .h) none s)

/-- `LD H,A` (R138). -/
def execLdHA (s : State) : Host.Outcome State Fault Refusal :=
  finish (applyLoad (.reg8 .a) (.reg8 .h) none s)

/-- `LD L,B` (R138). -/
def execLdLB (s : State) : Host.Outcome State Fault Refusal :=
  finish (applyLoad (.reg8 .b) (.reg8 .l) none s)

/-- `LD L,C` (R138). -/
def execLdLC (s : State) : Host.Outcome State Fault Refusal :=
  finish (applyLoad (.reg8 .c) (.reg8 .l) none s)

/-- `LD L,D` (R138). -/
def execLdLD (s : State) : Host.Outcome State Fault Refusal :=
  finish (applyLoad (.reg8 .d) (.reg8 .l) none s)

/-- `LD L,E` (R138). -/
def execLdLE (s : State) : Host.Outcome State Fault Refusal :=
  finish (applyLoad (.reg8 .e) (.reg8 .l) none s)

/-- `LD L,H` (R138). -/
def execLdLH (s : State) : Host.Outcome State Fault Refusal :=
  finish (applyLoad (.reg8 .h) (.reg8 .l) none s)

/-- `LD L,L` (R139). -/
def execLdLL (s : State) : Host.Outcome State Fault Refusal :=
  finish (applyNoOp s)

/-- `LD L,(HL)` (R140). -/
def execLdLMemHl (s : State) : Host.Outcome State Fault Refusal :=
  finish (applyLoad (.reg16 .hl) (.reg8 .l) none s)

/-- `LD L,A` (R138). -/
def execLdLA (s : State) : Host.Outcome State Fault Refusal :=
  finish (applyLoad (.reg8 .a) (.reg8 .l) none s)

/-- `LD (HL),B` (R141). -/
def execLdMemHlB (s : State) : Host.Outcome State Fault Refusal :=
  finish (applyLoad (.reg8 .b) (.reg16 .hl) none s)

/-- `LD (HL),C` (R141). -/
def execLdMemHlC (s : State) : Host.Outcome State Fault Refusal :=
  finish (applyLoad (.reg8 .c) (.reg16 .hl) none s)

/-- `LD (HL),D` (R141). -/
def execLdMemHlD (s : State) : Host.Outcome State Fault Refusal :=
  finish (applyLoad (.reg8 .d) (.reg16 .hl) none s)

/-- `LD (HL),E` (R141). -/
def execLdMemHlE (s : State) : Host.Outcome State Fault Refusal :=
  finish (applyLoad (.reg8 .e) (.reg16 .hl) none s)

/-- `LD (HL),H` (R141). -/
def execLdMemHlH (s : State) : Host.Outcome State Fault Refusal :=
  finish (applyLoad (.reg8 .h) (.reg16 .hl) none s)

/-- `LD (HL),L` (R141). -/
def execLdMemHlL (s : State) : Host.Outcome State Fault Refusal :=
  finish (applyLoad (.reg8 .l) (.reg16 .hl) none s)

/-- `LD (HL),A` (R141). -/
def execLdMemHlA (s : State) : Host.Outcome State Fault Refusal :=
  finish (applyLoad (.reg8 .a) (.reg16 .hl) none s)

/-- `LD A,B` (R138). -/
def execLdAB (s : State) : Host.Outcome State Fault Refusal :=
  finish (applyLoad (.reg8 .b) (.reg8 .a) none s)

/-- `LD A,C` (R138). -/
def execLdAC (s : State) : Host.Outcome State Fault Refusal :=
  finish (applyLoad (.reg8 .c) (.reg8 .a) none s)

/-- `LD A,D` (R138). -/
def execLdAD (s : State) : Host.Outcome State Fault Refusal :=
  finish (applyLoad (.reg8 .d) (.reg8 .a) none s)

/-- `LD A,E` (R138). -/
def execLdAE (s : State) : Host.Outcome State Fault Refusal :=
  finish (applyLoad (.reg8 .e) (.reg8 .a) none s)

/-- `LD A,H` (R138). -/
def execLdAH (s : State) : Host.Outcome State Fault Refusal :=
  finish (applyLoad (.reg8 .h) (.reg8 .a) none s)

/-- `LD A,L` (R138). -/
def execLdAL (s : State) : Host.Outcome State Fault Refusal :=
  finish (applyLoad (.reg8 .l) (.reg8 .a) none s)

/-- `LD A,(HL)` (R140). -/
def execLdAMemHl (s : State) : Host.Outcome State Fault Refusal :=
  finish (applyLoad (.reg16 .hl) (.reg8 .a) none s)

/-- `LD A,A` (R139). -/
def execLdAA (s : State) : Host.Outcome State Fault Refusal :=
  finish (applyNoOp s)

end Sys2Proof.Machine
end

