-- ==== Sys2Proof/Machine/NopHalt.lean ====
section
/-! DEFINITION. `NOP` and `HALT` (43_nop_halt.md R190, R191).
Each meaning is the executor's operation for what the row decodes to, run after the opcode fetch, so
`PC` already stands one past the opcode (40_execution.md R100). -/

namespace Sys2Proof.Machine

/-- `NOP` (R190). -/
def execNop (s : State) : Host.Outcome State Fault Refusal :=
  finish (applyNoOp s)

/-- `HALT` (R191). -/
def execHalt (s : State) : Host.Outcome State Fault Refusal :=
  finish (applyHalt s)

end Sys2Proof.Machine
end

