-- ==== Sys2Proof/Syntax.lean ====
section
/-! DEFINITION. The instructions: one constructor per row of spec/opcode_table.json. -/

namespace Sys2Proof

/-- The 89 matched opcodes of 30_encoding.md R82, one constructor a row of the opcode table, named
after its assembler form: `ldBC` is `LD B,C`, `ldMemBcA` is `LD (BC),A`, `ldAMemHlInc` is
`LD A,(HL+)`, `ldBN` is `LD B,n`.
No constructor has an argument: the decoder reads the opcode byte alone (R78), and the immediate
byte of `LD r,n` and `LD (HL),n` is fetched at `PC` when the instruction executes (R71, R106). DESIGN CHOICE (safe), log entry 7. -/
inductive Instr where
  -- x=0, z=0: `NOP` (R190)
  | nop
  -- x=0, z=2: loads between `A` and memory through `BC`, `DE`, `HL+`, `HL-` (R130-R137)
  | ldMemBcA
  | ldAMemBc
  | ldMemDeA
  | ldAMemDe
  | ldMemHlIncA
  | ldAMemHlInc
  | ldMemHlDecA
  | ldAMemHlDec
  -- x=0, z=3: 16-bit increment and decrement (R170-R177)
  | incBc
  | decBc
  | incDe
  | decDe
  | incHl
  | decHl
  | incSp
  | decSp
  -- x=0, z=6: loads of the immediate byte that follows the opcode (R142, R143)
  | ldBN
  | ldCN
  | ldDN
  | ldEN
  | ldHN
  | ldLN
  | ldMemHlN
  | ldAN
  -- x=1, y=0: loads into `B` (R138-R140)
  | ldBB
  | ldBC
  | ldBD
  | ldBE
  | ldBH
  | ldBL
  | ldBMemHl
  | ldBA
  -- x=1, y=1: loads into `C` (R138-R140)
  | ldCB
  | ldCC
  | ldCD
  | ldCE
  | ldCH
  | ldCL
  | ldCMemHl
  | ldCA
  -- x=1, y=2: loads into `D` (R138-R140)
  | ldDB
  | ldDC
  | ldDD
  | ldDE
  | ldDH
  | ldDL
  | ldDMemHl
  | ldDA
  -- x=1, y=3: loads into `E` (R138-R140)
  | ldEB
  | ldEC
  | ldED
  | ldEE
  | ldEH
  | ldEL
  | ldEMemHl
  | ldEA
  -- x=1, y=4: loads into `H` (R138-R140)
  | ldHB
  | ldHC
  | ldHD
  | ldHE
  | ldHH
  | ldHL
  | ldHMemHl
  | ldHA
  -- x=1, y=5: loads into `L` (R138-R140)
  | ldLB
  | ldLC
  | ldLD
  | ldLE
  | ldLH
  | ldLL
  | ldLMemHl
  | ldLA
  -- x=1, y=6: stores of a register to memory at `HL` (R141), and `HALT` (R191)
  | ldMemHlB
  | ldMemHlC
  | ldMemHlD
  | ldMemHlE
  | ldMemHlH
  | ldMemHlL
  | halt
  | ldMemHlA
  -- x=1, y=7: loads into `A` (R138-R140)
  | ldAB
  | ldAC
  | ldAD
  | ldAE
  | ldAH
  | ldAL
  | ldAMemHl
  | ldAA
deriving DecidableEq, Repr

end Sys2Proof
end

