-- ==== Sys2Proof/Machine/Dispatch.lean ====
section
/-! DEFINITION. The dispatch: one arm per constructor of `Instr`, each one call of its meaning
(40_execution.md R114). -/

namespace Sys2Proof.Machine

/-- Runs a decoded instruction on the state after the opcode fetch (R100, R114). The run state is
examined by `step` alone: DESIGN CHOICE (safe), log entry 9. -/
def exec (i : Instr) (s : State) : Host.Outcome State Fault Refusal :=
  match i with
  | .nop => Sys2Proof.Machine.execNop s
  | .ldMemBcA => Sys2Proof.Machine.execLdMemBcA s
  | .incBc => Sys2Proof.Machine.execIncBc s
  | .ldBN => Sys2Proof.Machine.execLdBN s
  | .ldAMemBc => Sys2Proof.Machine.execLdAMemBc s
  | .decBc => Sys2Proof.Machine.execDecBc s
  | .ldCN => Sys2Proof.Machine.execLdCN s
  | .ldMemDeA => Sys2Proof.Machine.execLdMemDeA s
  | .incDe => Sys2Proof.Machine.execIncDe s
  | .ldDN => Sys2Proof.Machine.execLdDN s
  | .ldAMemDe => Sys2Proof.Machine.execLdAMemDe s
  | .decDe => Sys2Proof.Machine.execDecDe s
  | .ldEN => Sys2Proof.Machine.execLdEN s
  | .ldMemHlIncA => Sys2Proof.Machine.execLdMemHlIncA s
  | .incHl => Sys2Proof.Machine.execIncHl s
  | .ldHN => Sys2Proof.Machine.execLdHN s
  | .ldAMemHlInc => Sys2Proof.Machine.execLdAMemHlInc s
  | .decHl => Sys2Proof.Machine.execDecHl s
  | .ldLN => Sys2Proof.Machine.execLdLN s
  | .ldMemHlDecA => Sys2Proof.Machine.execLdMemHlDecA s
  | .incSp => Sys2Proof.Machine.execIncSp s
  | .ldMemHlN => Sys2Proof.Machine.execLdMemHlN s
  | .ldAMemHlDec => Sys2Proof.Machine.execLdAMemHlDec s
  | .decSp => Sys2Proof.Machine.execDecSp s
  | .ldAN => Sys2Proof.Machine.execLdAN s
  | .ldBB => Sys2Proof.Machine.execLdBB s
  | .ldBC => Sys2Proof.Machine.execLdBC s
  | .ldBD => Sys2Proof.Machine.execLdBD s
  | .ldBE => Sys2Proof.Machine.execLdBE s
  | .ldBH => Sys2Proof.Machine.execLdBH s
  | .ldBL => Sys2Proof.Machine.execLdBL s
  | .ldBMemHl => Sys2Proof.Machine.execLdBMemHl s
  | .ldBA => Sys2Proof.Machine.execLdBA s
  | .ldCB => Sys2Proof.Machine.execLdCB s
  | .ldCC => Sys2Proof.Machine.execLdCC s
  | .ldCD => Sys2Proof.Machine.execLdCD s
  | .ldCE => Sys2Proof.Machine.execLdCE s
  | .ldCH => Sys2Proof.Machine.execLdCH s
  | .ldCL => Sys2Proof.Machine.execLdCL s
  | .ldCMemHl => Sys2Proof.Machine.execLdCMemHl s
  | .ldCA => Sys2Proof.Machine.execLdCA s
  | .ldDB => Sys2Proof.Machine.execLdDB s
  | .ldDC => Sys2Proof.Machine.execLdDC s
  | .ldDD => Sys2Proof.Machine.execLdDD s
  | .ldDE => Sys2Proof.Machine.execLdDE s
  | .ldDH => Sys2Proof.Machine.execLdDH s
  | .ldDL => Sys2Proof.Machine.execLdDL s
  | .ldDMemHl => Sys2Proof.Machine.execLdDMemHl s
  | .ldDA => Sys2Proof.Machine.execLdDA s
  | .ldEB => Sys2Proof.Machine.execLdEB s
  | .ldEC => Sys2Proof.Machine.execLdEC s
  | .ldED => Sys2Proof.Machine.execLdED s
  | .ldEE => Sys2Proof.Machine.execLdEE s
  | .ldEH => Sys2Proof.Machine.execLdEH s
  | .ldEL => Sys2Proof.Machine.execLdEL s
  | .ldEMemHl => Sys2Proof.Machine.execLdEMemHl s
  | .ldEA => Sys2Proof.Machine.execLdEA s
  | .ldHB => Sys2Proof.Machine.execLdHB s
  | .ldHC => Sys2Proof.Machine.execLdHC s
  | .ldHD => Sys2Proof.Machine.execLdHD s
  | .ldHE => Sys2Proof.Machine.execLdHE s
  | .ldHH => Sys2Proof.Machine.execLdHH s
  | .ldHL => Sys2Proof.Machine.execLdHL s
  | .ldHMemHl => Sys2Proof.Machine.execLdHMemHl s
  | .ldHA => Sys2Proof.Machine.execLdHA s
  | .ldLB => Sys2Proof.Machine.execLdLB s
  | .ldLC => Sys2Proof.Machine.execLdLC s
  | .ldLD => Sys2Proof.Machine.execLdLD s
  | .ldLE => Sys2Proof.Machine.execLdLE s
  | .ldLH => Sys2Proof.Machine.execLdLH s
  | .ldLL => Sys2Proof.Machine.execLdLL s
  | .ldLMemHl => Sys2Proof.Machine.execLdLMemHl s
  | .ldLA => Sys2Proof.Machine.execLdLA s
  | .ldMemHlB => Sys2Proof.Machine.execLdMemHlB s
  | .ldMemHlC => Sys2Proof.Machine.execLdMemHlC s
  | .ldMemHlD => Sys2Proof.Machine.execLdMemHlD s
  | .ldMemHlE => Sys2Proof.Machine.execLdMemHlE s
  | .ldMemHlH => Sys2Proof.Machine.execLdMemHlH s
  | .ldMemHlL => Sys2Proof.Machine.execLdMemHlL s
  | .halt => Sys2Proof.Machine.execHalt s
  | .ldMemHlA => Sys2Proof.Machine.execLdMemHlA s
  | .ldAB => Sys2Proof.Machine.execLdAB s
  | .ldAC => Sys2Proof.Machine.execLdAC s
  | .ldAD => Sys2Proof.Machine.execLdAD s
  | .ldAE => Sys2Proof.Machine.execLdAE s
  | .ldAH => Sys2Proof.Machine.execLdAH s
  | .ldAL => Sys2Proof.Machine.execLdAL s
  | .ldAMemHl => Sys2Proof.Machine.execLdAMemHl s
  | .ldAA => Sys2Proof.Machine.execLdAA s

end Sys2Proof.Machine
end

