-- ==== Sys2Proof/Decode.lean ====
section
/-! DEFINITION. The decoder (30_encoding.md): fields, lookup tables, the case analysis of R75 to a
decoded instruction kind and to the opcode table's row, and the encoder. -/

namespace Sys2Proof

/-! ### Opcode fields (R70) -/

/-- `x = bits[7:6]` (R70). -/
def fieldX (op : Byte) : BitVec 2 := op.extractLsb' 6 2

/-- `y = bits[5:3]` (R70). -/
def fieldY (op : Byte) : BitVec 3 := op.extractLsb' 3 3

/-- `z = bits[2:0]` (R70). -/
def fieldZ (op : Byte) : BitVec 3 := op.extractLsb' 0 3

/-- `p = y >> 1`, that is `y[2:1]` (R70). -/
def fieldP (op : Byte) : BitVec 2 := (fieldY op).extractLsb' 1 2

/-- `q = y & 1`, that is `y[0]` (R70). -/
def fieldQ (op : Byte) : BitVec 1 := (fieldY op).extractLsb' 0 1

/-! ### Lookup tables (R73, R74, R76) -/

/-- An entry of a four-entry table by its 2-bit index. -/
def pick4 {α : Type} (i : BitVec 2) (v0 v1 v2 v3 : α) : α :=
  if i = 0#2 then v0 else if i = 1#2 then v1 else if i = 2#2 then v2 else v3

/-- An entry of an eight-entry table by its 3-bit index. Every 3-bit index is in range (R81). -/
def pick8 {α : Type} (i : BitVec 3) (v0 v1 v2 v3 v4 v5 v6 v7 : α) : α :=
  if i = 0#3 then v0 else if i = 1#3 then v1 else if i = 2#3 then v2 else if i = 3#3 then v3
  else if i = 4#3 then v4 else if i = 5#3 then v5 else if i = 6#3 then v6 else v7

/-- The 8-entry register table `RT8` (R73); index 6 is memory at `HL`. -/
def rt8 (i : BitVec 3) : Operand :=
  pick8 i (.reg8 .b) (.reg8 .c) (.reg8 .d) (.reg8 .e) (.reg8 .h) (.reg8 .l) (.reg16 .hl) (.reg8 .a)

/-- The register-pair table `RP` (R74). -/
def rp (p : BitVec 2) : Reg16 := pick4 p .bc .de .hl .sp

/-- The address registers of the indirect-load table `RPI` (R76). -/
def rpiRegister (p : BitVec 2) : Reg16 := pick4 p .bc .de .hl .hl

/-- The followups of the indirect-load table `RPI` (R76). -/
def rpiFollowup (p : BitVec 2) : Option Followup :=
  pick4 p none none (some .increment16) (some .decrement16)

/-! ### The decoder (R75) -/

/-- The failure of R77: the opcode byte and its five fields. -/
def unmatchedFailure (op : Byte) : Failure :=
  .unmatched op (fieldX op) (fieldY op) (fieldZ op) (fieldP op) (fieldQ op)

/-- The case analysis of R75, in its order, to the kind of the decoded instruction. -/
def decodeKind (op : Byte) : Except Failure Kind :=
  if fieldX op = 0#2 ∧ fieldZ op = 2#3 then
    if fieldQ op = 0#1 then
      .ok (.load (.reg8 .a) (.reg16 (rpiRegister (fieldP op))) (rpiFollowup (fieldP op)))
    else
      .ok (.load (.reg16 (rpiRegister (fieldP op))) (.reg8 .a) (rpiFollowup (fieldP op)))
  else if fieldX op = 0#2 ∧ fieldZ op = 3#3 then
    if fieldQ op = 0#1 then .ok (.increment (.reg16 (rp (fieldP op))))
    else .ok (.decrement (.reg16 (rp (fieldP op))))
  else if fieldX op = 1#2 ∧ fieldY op = 6#3 ∧ fieldZ op = 6#3 then .ok .halt
  else if fieldX op = 1#2 then
    if fieldY op = fieldZ op then .ok .noOp
    else .ok (.load (rt8 (fieldZ op)) (rt8 (fieldY op)) none)
  else if fieldX op = 0#2 ∧ fieldZ op = 6#3 then .ok (.load .immediate8 (rt8 (fieldY op)) none)
  else if fieldX op = 0#2 ∧ fieldY op = 0#3 ∧ fieldZ op = 0#3 then .ok .noOp
  else .error (unmatchedFailure op)

/-- `Decode` of R75: `{ kind, cycles: CYCLES(op) }`, or the failure. -/
def decodeInstruction (op : Byte) : Except Failure Decoded :=
  match decodeKind op with
  | .ok k => .ok { kind := k, cycles := Config.cycles op }
  | .error e => .error e

/-! ### The decoder to the rows of the opcode table

The machine dispatches on the row, so the same case analysis is given once more with the table's
rows as its results; `Instr.kind` says what each row decodes to. -/

/-- The rows with x=0, z=2, by `p` and `q` (R76). -/
def indirectRow (p : BitVec 2) (q : BitVec 1) : Instr :=
  if q = 0#1 then pick4 p .ldMemBcA .ldMemDeA .ldMemHlIncA .ldMemHlDecA
  else pick4 p .ldAMemBc .ldAMemDe .ldAMemHlInc .ldAMemHlDec

/-- The rows with x=0, z=3, by `p` and `q` (R74). -/
def incDecRow (p : BitVec 2) (q : BitVec 1) : Instr :=
  if q = 0#1 then pick4 p .incBc .incDe .incHl .incSp
  else pick4 p .decBc .decDe .decHl .decSp

/-- The rows with x=0, z=6, by `y` (R73). -/
def immediateRow (y : BitVec 3) : Instr :=
  pick8 y .ldBN .ldCN .ldDN .ldEN .ldHN .ldLN .ldMemHlN .ldAN

/-- The rows with x=1, by `y` and `z`: rows 4x to 7x of the opcode map R82. The entry at y=6, z=6 is
`HALT`, which R75 takes before this case (R79). -/
def registerRow (y z : BitVec 3) : Instr :=
  pick8 y
    (pick8 z .ldBB .ldBC .ldBD .ldBE .ldBH .ldBL .ldBMemHl .ldBA)
    (pick8 z .ldCB .ldCC .ldCD .ldCE .ldCH .ldCL .ldCMemHl .ldCA)
    (pick8 z .ldDB .ldDC .ldDD .ldDE .ldDH .ldDL .ldDMemHl .ldDA)
    (pick8 z .ldEB .ldEC .ldED .ldEE .ldEH .ldEL .ldEMemHl .ldEA)
    (pick8 z .ldHB .ldHC .ldHD .ldHE .ldHH .ldHL .ldHMemHl .ldHA)
    (pick8 z .ldLB .ldLC .ldLD .ldLE .ldLH .ldLL .ldLMemHl .ldLA)
    (pick8 z .ldMemHlB .ldMemHlC .ldMemHlD .ldMemHlE .ldMemHlH .ldMemHlL .halt .ldMemHlA)
    (pick8 z .ldAB .ldAC .ldAD .ldAE .ldAH .ldAL .ldAMemHl .ldAA)

/-- The case analysis of R75, in its order, to the opcode table's row; total, and an unmatched byte
is refused with the failure of R77. -/
def decode (op : Byte) : Except Failure Instr :=
  if fieldX op = 0#2 ∧ fieldZ op = 2#3 then .ok (indirectRow (fieldP op) (fieldQ op))
  else if fieldX op = 0#2 ∧ fieldZ op = 3#3 then .ok (incDecRow (fieldP op) (fieldQ op))
  else if fieldX op = 1#2 ∧ fieldY op = 6#3 ∧ fieldZ op = 6#3 then .ok .halt
  else if fieldX op = 1#2 then .ok (registerRow (fieldY op) (fieldZ op))
  else if fieldX op = 0#2 ∧ fieldZ op = 6#3 then .ok (immediateRow (fieldY op))
  else if fieldX op = 0#2 ∧ fieldY op = 0#3 ∧ fieldZ op = 0#3 then .ok .nop
  else .error (unmatchedFailure op)

/-- What each row decodes to: the table's `decodes_to`, as in R130-R143, R170-R177, R190, R191. -/
def Instr.kind : Instr → Kind
  | .nop => .noOp
  | .ldMemBcA => .load (.reg8 .a) (.reg16 .bc) none
  | .incBc => .increment (.reg16 .bc)
  | .ldBN => .load .immediate8 (.reg8 .b) none
  | .ldAMemBc => .load (.reg16 .bc) (.reg8 .a) none
  | .decBc => .decrement (.reg16 .bc)
  | .ldCN => .load .immediate8 (.reg8 .c) none
  | .ldMemDeA => .load (.reg8 .a) (.reg16 .de) none
  | .incDe => .increment (.reg16 .de)
  | .ldDN => .load .immediate8 (.reg8 .d) none
  | .ldAMemDe => .load (.reg16 .de) (.reg8 .a) none
  | .decDe => .decrement (.reg16 .de)
  | .ldEN => .load .immediate8 (.reg8 .e) none
  | .ldMemHlIncA => .load (.reg8 .a) (.reg16 .hl) (some .increment16)
  | .incHl => .increment (.reg16 .hl)
  | .ldHN => .load .immediate8 (.reg8 .h) none
  | .ldAMemHlInc => .load (.reg16 .hl) (.reg8 .a) (some .increment16)
  | .decHl => .decrement (.reg16 .hl)
  | .ldLN => .load .immediate8 (.reg8 .l) none
  | .ldMemHlDecA => .load (.reg8 .a) (.reg16 .hl) (some .decrement16)
  | .incSp => .increment (.reg16 .sp)
  | .ldMemHlN => .load .immediate8 (.reg16 .hl) none
  | .ldAMemHlDec => .load (.reg16 .hl) (.reg8 .a) (some .decrement16)
  | .decSp => .decrement (.reg16 .sp)
  | .ldAN => .load .immediate8 (.reg8 .a) none
  | .ldBB => .noOp
  | .ldBC => .load (.reg8 .c) (.reg8 .b) none
  | .ldBD => .load (.reg8 .d) (.reg8 .b) none
  | .ldBE => .load (.reg8 .e) (.reg8 .b) none
  | .ldBH => .load (.reg8 .h) (.reg8 .b) none
  | .ldBL => .load (.reg8 .l) (.reg8 .b) none
  | .ldBMemHl => .load (.reg16 .hl) (.reg8 .b) none
  | .ldBA => .load (.reg8 .a) (.reg8 .b) none
  | .ldCB => .load (.reg8 .b) (.reg8 .c) none
  | .ldCC => .noOp
  | .ldCD => .load (.reg8 .d) (.reg8 .c) none
  | .ldCE => .load (.reg8 .e) (.reg8 .c) none
  | .ldCH => .load (.reg8 .h) (.reg8 .c) none
  | .ldCL => .load (.reg8 .l) (.reg8 .c) none
  | .ldCMemHl => .load (.reg16 .hl) (.reg8 .c) none
  | .ldCA => .load (.reg8 .a) (.reg8 .c) none
  | .ldDB => .load (.reg8 .b) (.reg8 .d) none
  | .ldDC => .load (.reg8 .c) (.reg8 .d) none
  | .ldDD => .noOp
  | .ldDE => .load (.reg8 .e) (.reg8 .d) none
  | .ldDH => .load (.reg8 .h) (.reg8 .d) none
  | .ldDL => .load (.reg8 .l) (.reg8 .d) none
  | .ldDMemHl => .load (.reg16 .hl) (.reg8 .d) none
  | .ldDA => .load (.reg8 .a) (.reg8 .d) none
  | .ldEB => .load (.reg8 .b) (.reg8 .e) none
  | .ldEC => .load (.reg8 .c) (.reg8 .e) none
  | .ldED => .load (.reg8 .d) (.reg8 .e) none
  | .ldEE => .noOp
  | .ldEH => .load (.reg8 .h) (.reg8 .e) none
  | .ldEL => .load (.reg8 .l) (.reg8 .e) none
  | .ldEMemHl => .load (.reg16 .hl) (.reg8 .e) none
  | .ldEA => .load (.reg8 .a) (.reg8 .e) none
  | .ldHB => .load (.reg8 .b) (.reg8 .h) none
  | .ldHC => .load (.reg8 .c) (.reg8 .h) none
  | .ldHD => .load (.reg8 .d) (.reg8 .h) none
  | .ldHE => .load (.reg8 .e) (.reg8 .h) none
  | .ldHH => .noOp
  | .ldHL => .load (.reg8 .l) (.reg8 .h) none
  | .ldHMemHl => .load (.reg16 .hl) (.reg8 .h) none
  | .ldHA => .load (.reg8 .a) (.reg8 .h) none
  | .ldLB => .load (.reg8 .b) (.reg8 .l) none
  | .ldLC => .load (.reg8 .c) (.reg8 .l) none
  | .ldLD => .load (.reg8 .d) (.reg8 .l) none
  | .ldLE => .load (.reg8 .e) (.reg8 .l) none
  | .ldLH => .load (.reg8 .h) (.reg8 .l) none
  | .ldLL => .noOp
  | .ldLMemHl => .load (.reg16 .hl) (.reg8 .l) none
  | .ldLA => .load (.reg8 .a) (.reg8 .l) none
  | .ldMemHlB => .load (.reg8 .b) (.reg16 .hl) none
  | .ldMemHlC => .load (.reg8 .c) (.reg16 .hl) none
  | .ldMemHlD => .load (.reg8 .d) (.reg16 .hl) none
  | .ldMemHlE => .load (.reg8 .e) (.reg16 .hl) none
  | .ldMemHlH => .load (.reg8 .h) (.reg16 .hl) none
  | .ldMemHlL => .load (.reg8 .l) (.reg16 .hl) none
  | .halt => .halt
  | .ldMemHlA => .load (.reg8 .a) (.reg16 .hl) none
  | .ldAB => .load (.reg8 .b) (.reg8 .a) none
  | .ldAC => .load (.reg8 .c) (.reg8 .a) none
  | .ldAD => .load (.reg8 .d) (.reg8 .a) none
  | .ldAE => .load (.reg8 .e) (.reg8 .a) none
  | .ldAH => .load (.reg8 .h) (.reg8 .a) none
  | .ldAL => .load (.reg8 .l) (.reg8 .a) none
  | .ldAMemHl => .load (.reg16 .hl) (.reg8 .a) none
  | .ldAA => .noOp

/-! ### The encoder -/

/-- The opcode byte of each row: the table's `encoding`, bits 7 to 0. -/
def Instr.opcode : Instr → Byte
  | .nop => 0b00000000#8
  | .ldMemBcA => 0b00000010#8
  | .incBc => 0b00000011#8
  | .ldBN => 0b00000110#8
  | .ldAMemBc => 0b00001010#8
  | .decBc => 0b00001011#8
  | .ldCN => 0b00001110#8
  | .ldMemDeA => 0b00010010#8
  | .incDe => 0b00010011#8
  | .ldDN => 0b00010110#8
  | .ldAMemDe => 0b00011010#8
  | .decDe => 0b00011011#8
  | .ldEN => 0b00011110#8
  | .ldMemHlIncA => 0b00100010#8
  | .incHl => 0b00100011#8
  | .ldHN => 0b00100110#8
  | .ldAMemHlInc => 0b00101010#8
  | .decHl => 0b00101011#8
  | .ldLN => 0b00101110#8
  | .ldMemHlDecA => 0b00110010#8
  | .incSp => 0b00110011#8
  | .ldMemHlN => 0b00110110#8
  | .ldAMemHlDec => 0b00111010#8
  | .decSp => 0b00111011#8
  | .ldAN => 0b00111110#8
  | .ldBB => 0b01000000#8
  | .ldBC => 0b01000001#8
  | .ldBD => 0b01000010#8
  | .ldBE => 0b01000011#8
  | .ldBH => 0b01000100#8
  | .ldBL => 0b01000101#8
  | .ldBMemHl => 0b01000110#8
  | .ldBA => 0b01000111#8
  | .ldCB => 0b01001000#8
  | .ldCC => 0b01001001#8
  | .ldCD => 0b01001010#8
  | .ldCE => 0b01001011#8
  | .ldCH => 0b01001100#8
  | .ldCL => 0b01001101#8
  | .ldCMemHl => 0b01001110#8
  | .ldCA => 0b01001111#8
  | .ldDB => 0b01010000#8
  | .ldDC => 0b01010001#8
  | .ldDD => 0b01010010#8
  | .ldDE => 0b01010011#8
  | .ldDH => 0b01010100#8
  | .ldDL => 0b01010101#8
  | .ldDMemHl => 0b01010110#8
  | .ldDA => 0b01010111#8
  | .ldEB => 0b01011000#8
  | .ldEC => 0b01011001#8
  | .ldED => 0b01011010#8
  | .ldEE => 0b01011011#8
  | .ldEH => 0b01011100#8
  | .ldEL => 0b01011101#8
  | .ldEMemHl => 0b01011110#8
  | .ldEA => 0b01011111#8
  | .ldHB => 0b01100000#8
  | .ldHC => 0b01100001#8
  | .ldHD => 0b01100010#8
  | .ldHE => 0b01100011#8
  | .ldHH => 0b01100100#8
  | .ldHL => 0b01100101#8
  | .ldHMemHl => 0b01100110#8
  | .ldHA => 0b01100111#8
  | .ldLB => 0b01101000#8
  | .ldLC => 0b01101001#8
  | .ldLD => 0b01101010#8
  | .ldLE => 0b01101011#8
  | .ldLH => 0b01101100#8
  | .ldLL => 0b01101101#8
  | .ldLMemHl => 0b01101110#8
  | .ldLA => 0b01101111#8
  | .ldMemHlB => 0b01110000#8
  | .ldMemHlC => 0b01110001#8
  | .ldMemHlD => 0b01110010#8
  | .ldMemHlE => 0b01110011#8
  | .ldMemHlH => 0b01110100#8
  | .ldMemHlL => 0b01110101#8
  | .halt => 0b01110110#8
  | .ldMemHlA => 0b01110111#8
  | .ldAB => 0b01111000#8
  | .ldAC => 0b01111001#8
  | .ldAD => 0b01111010#8
  | .ldAE => 0b01111011#8
  | .ldAH => 0b01111100#8
  | .ldAL => 0b01111101#8
  | .ldAMemHl => 0b01111110#8
  | .ldAA => 0b01111111#8

/-- The length of a matched instruction in bytes, told from its opcode alone (R85). -/
def opcodeLength (op : Byte) : Nat :=
  if fieldX op = 0#2 ∧ fieldZ op = 6#3 then 2 else 1

/-- The length of a row's instruction in bytes (R85). -/
def Instr.length (i : Instr) : Nat := opcodeLength i.opcode

/-- The bytes of an instruction (R70): the opcode, and in format `OP_N8` the immediate byte `n` after
it (R87). A format `OP` instruction has no immediate, and `n` is not used. -/
def encode (i : Instr) (n : Byte) : List Byte :=
  if i.length = 2 then [i.opcode, n] else [i.opcode]

/-- The instruction read from bits numbered as spec/opcode_table.json numbers them: the opcode is the
first byte, bits 7..0; the immediate byte, bits 15..8, is no part of the decoded instruction (R78). -/
def decodeTableWord (nbits w : Nat) : Option Instr :=
  match decode (BitVec.ofNat 8 (w % 2 ^ nbits)) with
  | .ok i => some i
  | .error _ => none

end Sys2Proof
end

