-- ==== Sys2Proof/Machine/Fetch.lean ====
section
/-! DEFINITION. Fetching and decoding the next instruction (40_execution.md R100). -/

namespace Sys2Proof.Machine

/-- The first half of the step (R100): read the opcode at `PC`, advance `PC` by one, decode. A decode
failure leaves `PC` one past the opcode (R102). -/
def fetchInstr (s : State) : Res Instr :=
  andThen (fetchByte s) fun op s1 =>
    match decode op with
    | .ok i => .ok i s1
    | .error e => .fail e s1

/-- The state with the first two bytes of `w`, bits above `nbits` zero, stored at `PC` and at the
address after it, which is where an immediate byte is read (R87, R106). -/
def placeWord (s : State) (nbits w : Nat) : State :=
  let bits := w % 2 ^ nbits
  let m := s.mem.write s.pc.toNat (BitVec.ofNat 8 bits)
  s.setMem (m.write (s.pc + 1#16).toNat (BitVec.ofNat 8 (bits / 256)))

end Sys2Proof.Machine
end

