-- ==== Sys2Proof/Machine/Step.lean ====
section
/-! DEFINITION. One step of the core (40_execution.md R100-R104). -/

namespace Sys2Proof.Machine

/-- `Step` (R100), only in the run state `Running` (R101): fetch, decode and execute one instruction.
A failure of the fetch or the decoder is raised (R102), which is a next state too. In `Halted` and
`Faulted(e)` the core has no step, and the model answers a fault that names the run state (D2). -/
def step (s : State) : Host.Outcome State Fault Refusal :=
  match s.run with
  | .running =>
      match fetchInstr s with
      | .ok i s1 => exec i s1
      | .fail e s1 => .next (raiseFailure e s1)
  | .halted => .fault .halted
  | .faulted e => .fault (.faulted e)

/-- The state whose very next step runs the instruction of the table's bits `w` (the host's seeding of
memory, R215, R232): its bytes stand at `PC`, and the run state is `Running`, without which there is
no step (R101). From `State.reset` the run state is `Running` already. DESIGN CHOICE (safe), log
entry 6. -/
def State.withFetchWord (s : State) (nbits w : Nat) : State := (placeWord s nbits w).setRun .running

end Sys2Proof.Machine
end

