-- ==== Sys2Proof/Rows.lean ====
section
/-! DEFINITION. The opcode table by family, as the instruction rules list it, for statements that hold
of every row of a family. Each opcode is the rule's encoding, bit by bit. -/

namespace Sys2Proof

/-- A row with a destination and a source register. -/
structure MoveRow where
  op : Byte
  instr : Instr
  dest : Reg8
  src : Reg8
deriving DecidableEq, Repr

/-- A row with one 8-bit register. -/
structure RegRow where
  op : Byte
  instr : Instr
  reg : Reg8
deriving DecidableEq, Repr

/-- A row with one 16-bit register. -/
structure PairRow where
  op : Byte
  instr : Instr
  pair : Reg16
deriving DecidableEq, Repr

/-- A row with no operand. -/
structure PlainRow where
  op : Byte
  instr : Instr
deriving DecidableEq, Repr

/-- A row of the whole opcode map, with what it decodes to. -/
structure OpcodeRow where
  op : Byte
  instr : Instr
  kind : Kind
deriving DecidableEq, Repr

/-- `LD B,s` with s another register (R138). -/
def moveRowsIntoB : List MoveRow :=
  [⟨0b01000001#8, .ldBC, .b, .c⟩,
   ⟨0b01000010#8, .ldBD, .b, .d⟩,
   ⟨0b01000011#8, .ldBE, .b, .e⟩,
   ⟨0b01000100#8, .ldBH, .b, .h⟩,
   ⟨0b01000101#8, .ldBL, .b, .l⟩,
   ⟨0b01000111#8, .ldBA, .b, .a⟩]

/-- `LD C,s` with s another register (R138). -/
def moveRowsIntoC : List MoveRow :=
  [⟨0b01001000#8, .ldCB, .c, .b⟩,
   ⟨0b01001010#8, .ldCD, .c, .d⟩,
   ⟨0b01001011#8, .ldCE, .c, .e⟩,
   ⟨0b01001100#8, .ldCH, .c, .h⟩,
   ⟨0b01001101#8, .ldCL, .c, .l⟩,
   ⟨0b01001111#8, .ldCA, .c, .a⟩]

/-- `LD D,s` with s another register (R138). -/
def moveRowsIntoD : List MoveRow :=
  [⟨0b01010000#8, .ldDB, .d, .b⟩,
   ⟨0b01010001#8, .ldDC, .d, .c⟩,
   ⟨0b01010011#8, .ldDE, .d, .e⟩,
   ⟨0b01010100#8, .ldDH, .d, .h⟩,
   ⟨0b01010101#8, .ldDL, .d, .l⟩,
   ⟨0b01010111#8, .ldDA, .d, .a⟩]

/-- `LD E,s` with s another register (R138). -/
def moveRowsIntoE : List MoveRow :=
  [⟨0b01011000#8, .ldEB, .e, .b⟩,
   ⟨0b01011001#8, .ldEC, .e, .c⟩,
   ⟨0b01011010#8, .ldED, .e, .d⟩,
   ⟨0b01011100#8, .ldEH, .e, .h⟩,
   ⟨0b01011101#8, .ldEL, .e, .l⟩,
   ⟨0b01011111#8, .ldEA, .e, .a⟩]

/-- `LD H,s` with s another register (R138). -/
def moveRowsIntoH : List MoveRow :=
  [⟨0b01100000#8, .ldHB, .h, .b⟩,
   ⟨0b01100001#8, .ldHC, .h, .c⟩,
   ⟨0b01100010#8, .ldHD, .h, .d⟩,
   ⟨0b01100011#8, .ldHE, .h, .e⟩,
   ⟨0b01100101#8, .ldHL, .h, .l⟩,
   ⟨0b01100111#8, .ldHA, .h, .a⟩]

/-- `LD L,s` with s another register (R138). -/
def moveRowsIntoL : List MoveRow :=
  [⟨0b01101000#8, .ldLB, .l, .b⟩,
   ⟨0b01101001#8, .ldLC, .l, .c⟩,
   ⟨0b01101010#8, .ldLD, .l, .d⟩,
   ⟨0b01101011#8, .ldLE, .l, .e⟩,
   ⟨0b01101100#8, .ldLH, .l, .h⟩,
   ⟨0b01101111#8, .ldLA, .l, .a⟩]

/-- `LD A,s` with s another register (R138). -/
def moveRowsIntoA : List MoveRow :=
  [⟨0b01111000#8, .ldAB, .a, .b⟩,
   ⟨0b01111001#8, .ldAC, .a, .c⟩,
   ⟨0b01111010#8, .ldAD, .a, .d⟩,
   ⟨0b01111011#8, .ldAE, .a, .e⟩,
   ⟨0b01111100#8, .ldAH, .a, .h⟩,
   ⟨0b01111101#8, .ldAL, .a, .l⟩]

/-- `LD r,s` with r ≠ s, the 42 rows of R138. -/
def moveRows : List MoveRow :=
  moveRowsIntoB ++ moveRowsIntoC ++ moveRowsIntoD ++ moveRowsIntoE ++ moveRowsIntoH ++ moveRowsIntoL ++ moveRowsIntoA

/-- `LD r,r` (R139). -/
def selfRows : List PlainRow :=
  [⟨0b01000000#8, .ldBB⟩,
   ⟨0b01001001#8, .ldCC⟩,
   ⟨0b01010010#8, .ldDD⟩,
   ⟨0b01011011#8, .ldEE⟩,
   ⟨0b01100100#8, .ldHH⟩,
   ⟨0b01101101#8, .ldLL⟩,
   ⟨0b01111111#8, .ldAA⟩]

/-- `LD r,(HL)` (R140). -/
def fromHlRows : List RegRow :=
  [⟨0b01000110#8, .ldBMemHl, .b⟩,
   ⟨0b01001110#8, .ldCMemHl, .c⟩,
   ⟨0b01010110#8, .ldDMemHl, .d⟩,
   ⟨0b01011110#8, .ldEMemHl, .e⟩,
   ⟨0b01100110#8, .ldHMemHl, .h⟩,
   ⟨0b01101110#8, .ldLMemHl, .l⟩,
   ⟨0b01111110#8, .ldAMemHl, .a⟩]

/-- `LD (HL),r` (R141). -/
def toHlRows : List RegRow :=
  [⟨0b01110000#8, .ldMemHlB, .b⟩,
   ⟨0b01110001#8, .ldMemHlC, .c⟩,
   ⟨0b01110010#8, .ldMemHlD, .d⟩,
   ⟨0b01110011#8, .ldMemHlE, .e⟩,
   ⟨0b01110100#8, .ldMemHlH, .h⟩,
   ⟨0b01110101#8, .ldMemHlL, .l⟩,
   ⟨0b01110111#8, .ldMemHlA, .a⟩]

/-- `LD r,n` (R142). -/
def immediateRows : List RegRow :=
  [⟨0b00000110#8, .ldBN, .b⟩,
   ⟨0b00001110#8, .ldCN, .c⟩,
   ⟨0b00010110#8, .ldDN, .d⟩,
   ⟨0b00011110#8, .ldEN, .e⟩,
   ⟨0b00100110#8, .ldHN, .h⟩,
   ⟨0b00101110#8, .ldLN, .l⟩,
   ⟨0b00111110#8, .ldAN, .a⟩]

/-- `LD (BC),A` and `LD (DE),A` (R130, R132). -/
def storePairRows : List PairRow :=
  [⟨0b00000010#8, .ldMemBcA, .bc⟩,
   ⟨0b00010010#8, .ldMemDeA, .de⟩]

/-- `LD A,(BC)` and `LD A,(DE)` (R131, R133). -/
def loadPairRows : List PairRow :=
  [⟨0b00001010#8, .ldAMemBc, .bc⟩,
   ⟨0b00011010#8, .ldAMemDe, .de⟩]

/-- `INC rr` (R170, R172, R174, R176). -/
def incRows : List PairRow :=
  [⟨0b00000011#8, .incBc, .bc⟩,
   ⟨0b00010011#8, .incDe, .de⟩,
   ⟨0b00100011#8, .incHl, .hl⟩,
   ⟨0b00110011#8, .incSp, .sp⟩]

/-- `DEC rr` (R171, R173, R175, R177). -/
def decRows : List PairRow :=
  [⟨0b00001011#8, .decBc, .bc⟩,
   ⟨0b00011011#8, .decDe, .de⟩,
   ⟨0b00101011#8, .decHl, .hl⟩,
   ⟨0b00111011#8, .decSp, .sp⟩]

/-- The whole opcode map (R82): the 89 matched opcodes, each with its row and what it decodes to. -/
def opcodeMap : List OpcodeRow :=
  moveRows.map (fun r => ⟨r.op, r.instr, .load (.reg8 r.src) (.reg8 r.dest) none⟩)
    ++ selfRows.map (fun r => ⟨r.op, r.instr, .noOp⟩)
    ++ fromHlRows.map (fun r => ⟨r.op, r.instr, .load (.reg16 .hl) (.reg8 r.reg) none⟩)
    ++ toHlRows.map (fun r => ⟨r.op, r.instr, .load (.reg8 r.reg) (.reg16 .hl) none⟩)
    ++ immediateRows.map (fun r => ⟨r.op, r.instr, .load .immediate8 (.reg8 r.reg) none⟩)
    ++ storePairRows.map (fun r => ⟨r.op, r.instr, .load (.reg8 .a) (.reg16 r.pair) none⟩)
    ++ loadPairRows.map (fun r => ⟨r.op, r.instr, .load (.reg16 r.pair) (.reg8 .a) none⟩)
    ++ incRows.map (fun r => ⟨r.op, r.instr, .increment (.reg16 r.pair)⟩)
    ++ decRows.map (fun r => ⟨r.op, r.instr, .decrement (.reg16 r.pair)⟩)
    ++ [⟨0b00100010#8, .ldMemHlIncA, .load (.reg8 .a) (.reg16 .hl) (some .increment16)⟩,
        ⟨0b00101010#8, .ldAMemHlInc, .load (.reg16 .hl) (.reg8 .a) (some .increment16)⟩,
        ⟨0b00110010#8, .ldMemHlDecA, .load (.reg8 .a) (.reg16 .hl) (some .decrement16)⟩,
        ⟨0b00111010#8, .ldAMemHlDec, .load (.reg16 .hl) (.reg8 .a) (some .decrement16)⟩,
        ⟨0b00110110#8, .ldMemHlN, .load .immediate8 (.reg16 .hl) none⟩,
        ⟨0b00000000#8, .nop, .noOp⟩,
        ⟨0b01110110#8, .halt, .halt⟩]

/-- A row of the opcode table: its opcode decodes to it and to its kind, its own opcode is that byte,
and its length is `len` (R75, R85). -/
def RowDecodes (op : Byte) (i : Instr) (k : Kind) (len : Nat) : Prop :=
  decode op = .ok i ∧ decodeKind op = .ok k ∧ i.kind = k ∧ i.opcode = op ∧ i.length = len

/-- The fields of an opcode read as numbers (R70): `x`, `y`, `z`, `p`, `q`. -/
def numericUnmatched (op : Byte) : Failure :=
  .unmatched op (BitVec.ofNat 2 (op.toNat / 64)) (BitVec.ofNat 3 (op.toNat / 8))
    (BitVec.ofNat 3 op.toNat) (BitVec.ofNat 2 (op.toNat / 16)) (BitVec.ofNat 1 (op.toNat / 8))

/-- The unmatched opcode bytes by field (R83): x=0 with z in 1, 4, 5, 7; x=0, z=0, y≠0; x in 2, 3. -/
abbrev IsUnmatched (op : Byte) : Prop :=
  (op.toNat < 64 ∧ (op.toNat % 8 = 1 ∨ op.toNat % 8 = 4 ∨ op.toNat % 8 = 5 ∨ op.toNat % 8 = 7))
    ∨ (op.toNat < 64 ∧ op.toNat % 8 = 0 ∧ op.toNat / 8 ≠ 0)
    ∨ op.toNat ≥ 128

/-- The 8-bit registers a 16-bit identifier is a view of (R22, R25). -/
def halves : Reg16 → List Reg8
  | .af => [.a, .f]
  | .bc => [.b, .c]
  | .de => [.d, .e]
  | .hl => [.h, .l]
  | .sp => []
  | .pc => []

/-- The opcodes of the two-byte instructions (R85). -/
def twoByteOpcodes : List Byte :=
  [0x06#8, 0x0E#8, 0x16#8, 0x1E#8, 0x26#8, 0x2E#8, 0x36#8, 0x3E#8]

/-- The address register of an opcode that stores to memory, `none` for one that does not
(R130, R132, R134, R136, R141, R143). -/
def storePair (op : Byte) : Option Reg16 :=
  if op = 0x02#8 then some .bc
  else if op = 0x12#8 then some .de
  else if op ∈ [0x22#8, 0x32#8, 0x36#8, 0x70#8, 0x71#8, 0x72#8, 0x73#8, 0x74#8, 0x75#8, 0x77#8] then
    some .hl
  else none

/-- The opcodes whose instruction writes an 8-bit register, alone or as half of a pair: the "written
by" column of R29. -/
def writers : Reg8 → List Byte
  | .a => [0x78#8, 0x79#8, 0x7A#8, 0x7B#8, 0x7C#8, 0x7D#8, 0x7E#8, 0x3E#8, 0x0A#8, 0x1A#8, 0x2A#8, 0x3A#8]
  | .f => []
  | .b => [0x41#8, 0x42#8, 0x43#8, 0x44#8, 0x45#8, 0x46#8, 0x47#8, 0x06#8, 0x03#8, 0x0B#8]
  | .c => [0x48#8, 0x4A#8, 0x4B#8, 0x4C#8, 0x4D#8, 0x4E#8, 0x4F#8, 0x0E#8, 0x03#8, 0x0B#8]
  | .d => [0x50#8, 0x51#8, 0x53#8, 0x54#8, 0x55#8, 0x56#8, 0x57#8, 0x16#8, 0x13#8, 0x1B#8]
  | .e => [0x58#8, 0x59#8, 0x5A#8, 0x5C#8, 0x5D#8, 0x5E#8, 0x5F#8, 0x1E#8, 0x13#8, 0x1B#8]
  | .h => [0x60#8, 0x61#8, 0x62#8, 0x63#8, 0x65#8, 0x66#8, 0x67#8, 0x26#8, 0x23#8, 0x2B#8,
      0x22#8, 0x2A#8, 0x32#8, 0x3A#8]
  | .l => [0x68#8, 0x69#8, 0x6A#8, 0x6B#8, 0x6C#8, 0x6E#8, 0x6F#8, 0x2E#8, 0x23#8, 0x2B#8,
      0x22#8, 0x2A#8, 0x32#8, 0x3A#8]

end Sys2Proof
end

