-- ==== Sys2Proof/Machine/Flags.lean ====
section
/-! DEFINITION. The flags register `F` (10_state.md R33). No instruction in scope reads or writes a
flag (R34), so there is no flag computation: the layout is all the spec gives. DEDUCED (unsafe if the order of the
bits is wrong), log entry 11. -/

namespace Sys2Proof.Machine

/-- `Z` (zero), bit 7 of `F` (R33). -/
def State.flagZ (s : State) : Bool := s.f.getLsbD 7

/-- `N` (subtract), bit 6 of `F` (R33). -/
def State.flagN (s : State) : Bool := s.f.getLsbD 6

/-- `H` (half-carry), bit 5 of `F` (R33). -/
def State.flagH (s : State) : Bool := s.f.getLsbD 5

/-- `C` (carry), bit 4 of `F` (R33). -/
def State.flagC (s : State) : Bool := s.f.getLsbD 4

/-- Bits 3..0 of `F` are zero (R33). An invariant of flag-affecting operations, of which the core has
none; a host write to `F` is stored unmasked and may break it (R34, C3, D13). -/
def State.flagsLowClear (s : State) : Bool := s.f.extractLsb' 0 4 == 0#4

end Sys2Proof.Machine
end

