-- ==== Sys2Proof/Machine/HostOps.lean ====
section
/-! DEFINITION. What the host does between steps (60_exceptions.md R215, R216) beside the register and
memory operations of Machine/Ops.lean: `run()` and resuming. -/

namespace Sys2Proof.Machine

/-- `run()` (R103) cut off after at most `k` steps: it repeats the step while the run state is
`Running`, and in any other run state performs no step and returns that state (D2). DESIGN CHOICE (safe), log
entry 10. -/
def runFor : Nat → State → State
  | 0, s => s
  | k + 1, s =>
    match step s with
    | .next t => runFor k t
    | .fault _ => s
    | .refused _ => s

/-- `run()` called in `s` returns in `t` (R103, R105): after some number of steps the run state is no
longer `Running`. If there is no such `t`, `run()` does not return. -/
def Returns (s t : State) : Prop := ∃ k, runFor k s = t ∧ t.run ≠ .running

/-- What `step()` and `run()` return to the host in the state they leave (R103, R104, R208): the failure
that was raised, or `none` for success. -/
def returned (t : State) : Option Failure :=
  match t.run with
  | .running => none
  | .halted => none
  | .faulted e => some e

/-- Resuming (R216, D22): the host writes `PC` and sets the run state back to `Running`; any other
state it writes with the operations of R215. -/
def resume (pc : Word) (s : State) : State := (s.setReg16 .pc pc).setRun .running

end Sys2Proof.Machine
end

