-- ==== Sys2Proof/Safety.lean ====
section
/-! DEFINITION. The terms claims are stated in: the invariant of the state, what a step answers, and
what two states have in common. -/

namespace Sys2Proof.Machine

/-- The invariant every step keeps: memory is in its canonical form, all of it inside the address
space (R50). -/
def Canonical (s : State) : Prop := s.mem.wf

/-- The next state of an outcome, if it has one. -/
def nextOf (o : Host.Outcome State Fault Refusal) : Option State :=
  match o with
  | .next s => some s
  | .fault _ => none
  | .refused _ => none

/-- An outcome with its next state changed by `g`; a fault or a refusal stays. -/
def mapNext (g : State → State) (o : Host.Outcome State Fault Refusal) :
    Host.Outcome State Fault Refusal :=
  match o with
  | .next s => .next (g s)
  | .fault r => .fault r
  | .refused r => .refused r

/-- A run state reachable by decoded instructions: running, halted, or faulted by an unmatched opcode
(R116, R205). -/
def ReachableRun (r : RunState) : Prop :=
  r = .running ∨ r = .halted ∨ ∃ op, r = .faulted (unmatchedFailure op)

/-- The 8-bit registers outside `rs` hold the same in both states. -/
def SameRegsExcept (rs : List Reg8) (s t : State) : Prop :=
  ∀ r, r ∉ rs → t.getReg8 r = s.getReg8 r

/-- Every byte of memory reads the same in both states. -/
def SameMemory (s t : State) : Prop := ∀ a, t.byteAt a = s.byteAt a

/-- Every byte of memory but the one at `a` reads the same in both states. -/
def SameMemoryExcept (a : Word) (s t : State) : Prop := ∀ b, b ≠ a → t.byteAt b = s.byteAt b

/-- The state after the opcode fetch (R100): `PC` one past the opcode. -/
def afterFetch (s : State) : State := s.setReg16 .pc (s.pc + 1#16)

end Sys2Proof.Machine
end

