-- ==== Sys2Proof/WellFormed.lean ====
section
/-! DEFINITION. Well-formedness of a decoded instruction kind: the shapes 40_execution.md R116 lists.
A row of the opcode table (`Instr`) has no argument, so only the executor's general kinds, which a
host may build by hand (D4-D7), can be ill-formed. -/

namespace Sys2Proof

/-- A destination the executor accepts: "every decoded `Load` has a `Reg8` or `Reg16` destination"
(R116, R108). -/
def Operand.isDestination : Operand → Bool
  | .reg8 _ => true
  | .reg16 _ => true
  | .immediate8 => false
  | .immediate16 => false

/-- A source that resolves as a byte: "a `Reg8`, `Reg16` or `Immediate8` source" (R116, R106). -/
def Operand.isByteSource : Operand → Bool
  | .reg8 _ => true
  | .reg16 _ => true
  | .immediate8 => true
  | .immediate16 => false

/-- A 16-bit register operand (R116). -/
def Operand.isReg16 : Operand → Bool
  | .reg8 _ => false
  | .reg16 _ => true
  | .immediate8 => false
  | .immediate16 => false

/-- The shapes the decoder produces (R116): each check is one clause of that rule, and the reserved
`Arithmetic` (R113) is refused. -/
def Kind.wellFormed : Kind → Bool
  | .load src dest followup =>
      dest.isDestination && src.isByteSource
        && (followup.isNone || dest.isReg16 || src.isReg16)
  | .increment o => o.isReg16
  | .decrement o => o.isReg16
  | .noOp => true
  | .halt => true
  | .arithmetic => false

end Sys2Proof
end

