-- ==== Sys2Proof/Certificates/Slice0/Obligations.lean ====
section
/-! DEFINITION. The statements about the core, for the provers. -/

open Sys2Proof Sys2Proof.Machine

/-! ### Reset, registers, memory -/

/-- R41: the values at construction. -/
def Obligations.ResetValues : Prop :=
  (∀ r, State.reset.getReg8 r = 0x00#8) ∧ (∀ rr, State.reset.getReg16 rr = 0x0000#16)
    ∧ (∀ a, State.reset.byteAt a = 0x00#8) ∧ State.reset.run = .running

/-- The invariant of `StepKeepsCanonicalMemory` holds at construction. The canonical form is the
model's own choice (DESIGN CHOICE, log entry 2), no rule of the spec; R41 and R50 give the array of zero
bytes that it writes as the empty list. -/
def Obligations.ResetMemoryCanonical : Prop := Canonical State.reset

/-- R21: an 8-bit register stores any byte; nothing else changes. -/
def Obligations.Reg8WriteReadsBack : Prop :=
  ∀ (s : State) (r : Reg8) (v : Byte),
    (s.setReg8 r v).getReg8 r = v ∧ SameRegsExcept [r] s (s.setReg8 r v)
      ∧ (s.setReg8 r v).sp = s.sp ∧ (s.setReg8 r v).pc = s.pc
      ∧ (s.setReg8 r v).mem = s.mem ∧ (s.setReg8 r v).run = s.run

/-- R22, R23: a pair reads as its two halves at that instant, the first-named high. -/
def Obligations.PairsReadTheirHalves : Prop :=
  ∀ s : State,
    (s.getReg16 .af).toNat = s.a.toNat * 256 + s.f.toNat
      ∧ (s.getReg16 .bc).toNat = s.b.toNat * 256 + s.c.toNat
      ∧ (s.getReg16 .de).toNat = s.d.toNat * 256 + s.e.toNat
      ∧ (s.getReg16 .hl).toNat = s.h.toNat * 256 + s.l.toNat

/-- R24, R25: a 16-bit write reads back whole; a pair write writes exactly its two halves. -/
def Obligations.Reg16WriteSplitsHalves : Prop :=
  ∀ (s : State) (v : Word),
    (∀ rr, (s.setReg16 rr v).getReg16 rr = v
      ∧ SameRegsExcept (halves rr) s (s.setReg16 rr v)
      ∧ (rr ≠ .sp → (s.setReg16 rr v).sp = s.sp) ∧ (rr ≠ .pc → (s.setReg16 rr v).pc = s.pc)
      ∧ (s.setReg16 rr v).mem = s.mem ∧ (s.setReg16 rr v).run = s.run)
    ∧ ((s.setReg16 .af v).a.toNat = v.toNat / 256 ∧ (s.setReg16 .af v).f.toNat = v.toNat % 256)
    ∧ ((s.setReg16 .bc v).b.toNat = v.toNat / 256 ∧ (s.setReg16 .bc v).c.toNat = v.toNat % 256)
    ∧ ((s.setReg16 .de v).d.toNat = v.toNat / 256 ∧ (s.setReg16 .de v).e.toNat = v.toNat % 256)
    ∧ ((s.setReg16 .hl v).h.toNat = v.toNat / 256 ∧ (s.setReg16 .hl v).l.toNat = v.toNat % 256)
    ∧ (s.setReg16 .sp v).sp = v ∧ (s.setReg16 .pc v).pc = v

/-- R27: increment and decrement wrap at the identifier's width and touch the named register only. -/
def Obligations.IncrementDecrementWrap : Prop :=
  (∀ (s : State) (r : Reg8),
    ((s.incReg8 r).getReg8 r).toNat = ((s.getReg8 r).toNat + 1) % 256
      ∧ ((s.decReg8 r).getReg8 r).toNat = ((s.getReg8 r).toNat + 255) % 256
      ∧ s.incReg8 r = s.setReg8 r ((s.incReg8 r).getReg8 r)
      ∧ s.decReg8 r = s.setReg8 r ((s.decReg8 r).getReg8 r)
      ∧ SameRegsExcept [r] s (s.incReg8 r) ∧ SameRegsExcept [r] s (s.decReg8 r))
  ∧ ∀ (s : State) (rr : Reg16),
    ((s.incReg16 rr).getReg16 rr).toNat = ((s.getReg16 rr).toNat + 1) % 65536
      ∧ ((s.decReg16 rr).getReg16 rr).toNat = ((s.getReg16 rr).toNat + 65535) % 65536
      ∧ s.incReg16 rr = s.setReg16 rr ((s.incReg16 rr).getReg16 rr)
      ∧ s.decReg16 rr = s.setReg16 rr ((s.decReg16 rr).getReg16 rr)
      ∧ SameRegsExcept (halves rr) s (s.incReg16 rr) ∧ SameRegsExcept (halves rr) s (s.decReg16 rr)

/-- R51: a read returns the bytes in order and changes no state, or fails, with the sum taken without
wrap-around. That a failed read leaves the run state too is the model's choice (DESIGN CHOICE, log
entry 12). -/
def Obligations.ReadReturnsBytesInOrder : Prop :=
  ∀ (s : State) (addr : Word) (n : Nat),
    (addr.toNat + n > 65536 → memRead addr n s = .fail (.memoryOverflow addr n) s)
    ∧ (addr.toNat + n ≤ 65536 → ∃ bytes, memRead addr n s = .ok bytes s ∧ bytes.length = n
        ∧ ∀ i < n, bytes[i]? = some (s.byteAt (addr + BitVec.ofNat 16 i)))
    ∧ readByte addr s = .ok (s.byteAt addr) s

/-- R52: a write sets exactly its bytes, or fails and leaves memory as it was. That a failed write leaves
the run state too is the model's choice (DESIGN CHOICE, log entry 12). -/
def Obligations.WriteIsAllOrNothing : Prop :=
  ∀ (s : State) (addr : Word) (bytes : List Byte),
    (addr.toNat + bytes.length > 65536 →
      memWrite addr bytes s = .fail (.memoryOverflow addr bytes.length) s)
    ∧ (addr.toNat + bytes.length ≤ 65536 →
      ∃ t, memWrite addr bytes s = .ok () t ∧ t = s.setMem t.mem
        ∧ (∀ i < bytes.length, bytes[i]? = some (t.byteAt (addr + BitVec.ofNat 16 i)))
        ∧ ∀ b : Word, (b.toNat < addr.toNat ∨ addr.toNat + bytes.length ≤ b.toNat) →
            t.byteAt b = s.byteAt b)
    ∧ ∀ v, writeByte addr v s = memWrite addr [v] s

/-- R58: the memory round trip. That a failed access leaves the run state too is the model's choice
(DESIGN CHOICE, log entry 12). -/
def Obligations.MemoryRoundTrip : Prop :=
  ∀ (s : State) (addr : Word) (bytes : List Byte),
    (addr.toNat + bytes.length ≤ 65536 →
      ∃ t, memWrite addr bytes s = .ok () t ∧ memRead addr bytes.length t = .ok bytes t)
    ∧ (addr.toNat + bytes.length > 65536 →
      memWrite addr bytes s = .fail (.memoryOverflow addr bytes.length) s
        ∧ memRead addr bytes.length s = .fail (.memoryOverflow addr bytes.length) s)

/-! ### Decoding -/

/-- R75 with its tables R73, R74, R76 and its one overlap R79: the case analysis, each opcode written
`64 * x + 8 * y + z` (R70); `LD r,r` is `NoOp` (R80); every byte outside the cases fails (R77). -/
def Obligations.DecoderCaseAnalysis : Prop :=
  (List.range 8).map (fun i => rt8 (BitVec.ofNat 3 i))
      = [.reg8 .b, .reg8 .c, .reg8 .d, .reg8 .e, .reg8 .h, .reg8 .l, .reg16 .hl, .reg8 .a]
    ∧ (List.range 4).map (fun i => rp (BitVec.ofNat 2 i)) = [.bc, .de, .hl, .sp]
    ∧ (List.range 4).map (fun i => (rpiRegister (BitVec.ofNat 2 i), rpiFollowup (BitVec.ofNat 2 i)))
      = [(.bc, none), (.de, none), (.hl, some .increment16), (.hl, some .decrement16)]
    ∧ (∀ p : Fin 4, ∀ q : Fin 2,
      decodeKind (BitVec.ofNat 8 (8 * (2 * p + q) + 2)) =
        .ok (if q = 0 then
            .load (.reg8 .a) (.reg16 (rpiRegister (BitVec.ofNat 2 p))) (rpiFollowup (BitVec.ofNat 2 p))
          else
            .load (.reg16 (rpiRegister (BitVec.ofNat 2 p))) (.reg8 .a) (rpiFollowup (BitVec.ofNat 2 p)))
      ∧ decodeKind (BitVec.ofNat 8 (8 * (2 * p + q) + 3)) =
        .ok (if q = 0 then .increment (.reg16 (rp (BitVec.ofNat 2 p)))
          else .decrement (.reg16 (rp (BitVec.ofNat 2 p)))))
    ∧ (∀ y z : Fin 8,
      decodeKind (BitVec.ofNat 8 (64 + 8 * y + z)) =
        .ok (if y = 6 ∧ z = 6 then .halt
          else if y = z then .noOp
          else .load (rt8 (BitVec.ofNat 3 z)) (rt8 (BitVec.ofNat 3 y)) none))
    ∧ (∀ y : Fin 8,
      decodeKind (BitVec.ofNat 8 (8 * y + 6)) =
        .ok (.load .immediate8 (rt8 (BitVec.ofNat 3 y)) none))
    ∧ decodeKind 0x00#8 = .ok .noOp
    ∧ (∀ op : Byte, op ≠ 0x00#8 → op.toNat / 64 ≠ 1 →
      ¬ (op.toNat / 64 = 0 ∧ (op.toNat % 8 = 2 ∨ op.toNat % 8 = 3 ∨ op.toNat % 8 = 6)) →
      decodeKind op = .error (numericUnmatched op))
    ∧ ∀ op, decodeInstruction op =
      (decodeKind op).map fun k => { kind := k, cycles := Config.cycles op }

/-- The whole opcode map, every one of the 256 opcode bytes (R82, which the spec derives from R75). -/
def Obligations.OpcodeMapComplete : Prop :=
  (∀ row ∈ opcodeMap,
      RowDecodes row.op row.instr row.kind (if row.op ∈ twoByteOpcodes then 2 else 1))
    ∧ (opcodeMap.map OpcodeRow.op).Nodup ∧ opcodeMap.length = 89
    ∧ ∀ op, op ∉ opcodeMap.map OpcodeRow.op →
        decode op = .error (numericUnmatched op) ∧ decodeKind op = .error (numericUnmatched op)

/-- Exactly the bytes R83 describes by field fail, with the opcode and its fields (R77), and decoding
fails in no other way (R81). The spec derives R83 and R81 from R75. -/
def Obligations.UnmatchedBytesByField : Prop :=
  ∀ op, (IsUnmatched op → decode op = .error (numericUnmatched op))
    ∧ (¬ IsUnmatched op → ∃ i, decode op = .ok i)
    ∧ ∀ e, decode op = .error e → e = numericUnmatched op

/-- Decode and encode agree: a byte decodes to a row exactly if it is the first byte of the row's
encoding, whatever the immediate. -/
def Obligations.DecodeEncodeAgree : Prop :=
  ∀ (op : Byte) (i : Instr) (n : Byte), decode op = .ok i ↔ (encode i n).head? = some op

/-- A few words written out from the spec's encodings (R130, R135, R138, R139, R140, R141, R142, R143,
R170, R177, R190, R191). -/
def Obligations.SpecWordsDecode : Prop :=
  decode 0b00000010#8 = .ok .ldMemBcA ∧ decode 0b00101010#8 = .ok .ldAMemHlInc
    ∧ decode 0b01000001#8 = .ok .ldBC ∧ decode 0b01000000#8 = .ok .ldBB
    ∧ decode 0b01000110#8 = .ok .ldBMemHl ∧ decode 0b01110011#8 = .ok .ldMemHlE
    ∧ decode 0b00000110#8 = .ok .ldBN ∧ decode 0b00110110#8 = .ok .ldMemHlN
    ∧ decode 0b00000011#8 = .ok .incBc ∧ decode 0b00111011#8 = .ok .decSp
    ∧ decode 0b00000000#8 = .ok .nop ∧ decode 0b01110110#8 = .ok .halt

/-- R72: the decoded instruction carries the kind and `CYCLES(opcode)`, for the row the byte decodes
to. `Config.cycles` is the open parameter of log entry 1: this holds for every value of it. -/
def Obligations.DecodedCarriesKindAndCycles : Prop :=
  ∀ op i, decode op = .ok i →
    decodeInstruction op = .ok { kind := i.kind, cycles := Config.cycles op }

/-! ### The step -/

/-- R100: the opcode is read at `PC` and `PC` advances by one; a step runs the instruction the byte
decodes to on that state. The last clause, that the decoder's failure is raised there as a next state, is
R14 and R102 with the spec's own decision D3, and the model's reading of them (DEDUCED, log entry 3). -/
def Obligations.StepRunsDecodedInstruction : Prop :=
  ∀ s, s.run = .running →
    fetchByte s = .ok (s.byteAt s.pc) (afterFetch s)
      ∧ (∀ i, decode (s.byteAt s.pc) = .ok i → step s = exec i (afterFetch s))
      ∧ ∀ e, decode (s.byteAt s.pc) = .error e → step s = .next (raiseFailure e (afterFetch s))

/-- The bytes of `encode i n` at `PC` are run as `i`, and an immediate of format `OP_N8` resolves to
`n` and advances `PC` by one more (R87, R100, R106). -/
def Obligations.EncodedBytesRun : Prop :=
  ∀ s i n, s.run = .running →
    (∀ k v, (encode i n)[k]? = some v → s.byteAt (s.pc + BitVec.ofNat 16 k) = v) →
    step s = exec i (afterFetch s)
      ∧ (i.length = 2 →
          resolveByte .immediate8 (afterFetch s) = .ok n (s.setReg16 .pc (s.pc + 2#16)))

/-- The state an unmatched opcode leaves: `Faulted` with the opcode and its fields, `PC` one past the
opcode, all else as before (R77, R102, D3, and R209, which the spec derives). That this is a next state
is the model's reading (DEDUCED, log entry 3). -/
def Obligations.UnmatchedOpcodeFaults : Prop :=
  ∀ s, s.run = .running → IsUnmatched (s.byteAt s.pc) →
    ∃ t, step s = .next t ∧ t.run = .faulted (numericUnmatched (s.byteAt s.pc))
      ∧ t.pc = s.pc + 1#16 ∧ s.pc = t.pc - 1#16
      ∧ SameRegsExcept [] s t ∧ t.sp = s.sp ∧ t.mem = s.mem

/-- A step exists exactly in the run state `Running` (R101); in a terminal one the model answers a
fault that names it (the spec's own decision D2, log entry 4). -/
def Obligations.StepExistsOnlyWhenRunning : Prop :=
  ∀ s, ((∃ t, step s = .next t) ↔ s.run = .running)
    ∧ (s.run = .halted → step s = .fault .halted)
    ∧ ∀ e, s.run = .faulted e → step s = .fault (.faulted e)

/-- Every step keeps the memory in its canonical form, from every state that has it: addresses inside
the address space (R50), the form itself the model's choice (log entry 2). -/
def Obligations.StepKeepsCanonicalMemory : Prop :=
  ∀ s t, Canonical s → step s = .next t → Canonical t

/-- R34: no step reads or writes `F` or any flag; a host write stores all eight bits. -/
def Obligations.FlagsNeitherReadNorWritten : Prop :=
  ∀ (s : State) (v : Byte),
    step (s.setReg8 .f v) = mapNext (fun t => t.setReg8 .f v) (step s)
      ∧ (∀ t, step s = .next t → t.f = s.f ∧ t.flagZ = s.flagZ ∧ t.flagN = s.flagN
          ∧ t.flagH = s.flagH ∧ t.flagC = s.flagC)
      ∧ (s.setReg8 .f v).f = v
      ∧ ∀ w, (s.setReg16 .af w).f.toNat = w.toNat % 256

/-- From every running state the core steps, and its next run state is told by the opcode alone:
`HALT` halts, an unmatched byte faults with `DecodeError.Unmatched`, every other byte goes on running;
and every row's instruction has a next state in every state (R105, R112, R116, R205; all but R112 the
spec derives). That a failure is a next state is log entry 3 (DEDUCED), and that `exec` does not look at
the run state is log entry 9 (DESIGN CHOICE). -/
def Obligations.RunStateToldByOpcode : Prop :=
  (∀ s, s.run = .running → ∃ t, step s = .next t ∧ t.run =
      if s.byteAt s.pc = 0x76#8 then .halted
      else if IsUnmatched (s.byteAt s.pc) then .faulted (numericUnmatched (s.byteAt s.pc))
      else .running)
    ∧ ∀ i s, ∃ t, exec i s = .next t ∧ t.run = if i = .halt then .halted else s.run

/-- Every kind the decoder produces is one of the shapes of R116, `Execute` raises no failure on
any such shape, and so a run whose failures are none or `DecodeError.Unmatched` keeps it so
(R116, which the spec derives). `runFor` is the model's form of a run (DESIGN CHOICE, log entry 10). -/
def Obligations.DecodedKindsNeverFail : Prop :=
  (∀ op k, decodeKind op = .ok k → k.wellFormed = true)
    ∧ (∀ (k : Kind) (s : State), k.wellFormed = true → ∃ t, execute k s = .ok () t)
    ∧ ∀ n s, ReachableRun s.run → ReachableRun (runFor n s).run

/-- `PC` after a step is the address after the instruction's last byte, modulo 2^16; an
unmatched opcode consumes its one byte (R30, R31, R85). -/
def Obligations.PcAdvancesByLength : Prop :=
  ∀ s t, step s = .next t →
    t.pc.toNat =
      (s.pc.toNat + (if s.byteAt s.pc ∈ twoByteOpcodes then 2 else 1)) % 65536

/-- `SP` changes only by `INC SP` and `DEC SP` (R29, R115). -/
def Obligations.SpChangesOnlyByIncDecSp : Prop :=
  ∀ s t, step s = .next t →
    t.sp = if s.byteAt s.pc = 0x33#8 then s.sp + 1#16
      else if s.byteAt s.pc = 0x3B#8 then s.sp - 1#16 else s.sp

/-- `SP` is read by `INC SP` and `DEC SP` alone (R29): any other step runs the same whatever `SP`
holds. -/
def Obligations.SpReadOnlyByIncDecSp : Prop :=
  ∀ s v, s.byteAt s.pc ≠ 0x33#8 → s.byteAt s.pc ≠ 0x3B#8 →
    step (s.setReg16 .sp v) = mapNext (fun t => t.setReg16 .sp v) (step s)

/-- An 8-bit register changes only by the opcodes of the "written by" column of R29. -/
def Obligations.RegistersWrittenOnlyAsTabled : Prop :=
  ∀ s t r, step s = .next t → s.byteAt s.pc ∉ writers r → t.getReg8 r = s.getReg8 r

/-- A step changes at most the one byte its opcode stores to, at the address register's value before
the step. -/
def Obligations.MemoryChangesOnlyAtStore : Prop :=
  ∀ s t a, step s = .next t →
    (∀ rr, storePair (s.byteAt s.pc) = some rr → s.getReg16 rr ≠ a) → t.byteAt a = s.byteAt a

/-- A byte stored at the address of the next instruction is the byte the next fetch there reads
(R64, which the spec derives; decision D12): at `PC + 1` for the eleven storing opcodes of one byte, and
at `PC + 2` for `LD (HL),n`, which stores its immediate (the last corner case of R143). -/
def Obligations.NextFetchSeesStore : Prop :=
  (∀ s rr, s.run = .running → storePair (s.byteAt s.pc) = some rr →
    s.byteAt s.pc ∉ twoByteOpcodes → s.getReg16 rr = s.pc + 1#16 →
    ∃ t v, step s = .next t ∧ t.run = .running ∧ t.pc = s.pc + 1#16
      ∧ ((∃ row ∈ toHlRows, row.op = s.byteAt s.pc ∧ v = s.getReg8 row.reg)
          ∨ (s.byteAt s.pc ∈ [0x02#8, 0x12#8, 0x22#8, 0x32#8] ∧ v = s.a))
      ∧ fetchByte t = .ok v (t.setReg16 .pc (s.pc + 2#16)))
  ∧ ∀ s, s.run = .running → s.byteAt s.pc = 0x36#8 → s.getReg16 .hl = s.pc + 2#16 →
    ∃ t, step s = .next t ∧ t.run = .running ∧ t.pc = s.pc + 2#16
      ∧ fetchByte t = .ok (s.byteAt (s.pc + 1#16)) (t.setReg16 .pc (s.pc + 3#16))

/-- `LD (HL),n` with `HL` the address of its own immediate stores the immediate it read (R65, which the
spec derives). -/
def Obligations.ImmediateReadBeforeStore : Prop :=
  ∀ s, s.run = .running → s.byteAt s.pc = 0x36#8 → s.getReg16 .hl = s.pc + 1#16 →
    ∃ t, step s = .next t ∧ t.byteAt (s.pc + 1#16) = s.byteAt (s.pc + 1#16) ∧ SameMemory s t
      ∧ t.pc = s.pc + 2#16

/-! ### The instructions: what each one does, with its next state -/

/-- R138: `LD r,s`, the 42 rows of `moveRows`. -/
def Obligations.LoadRegisterFromRegister : Prop :=
  ∀ row ∈ moveRows,
    RowDecodes row.op row.instr (.load (.reg8 row.src) (.reg8 row.dest) none) 1
      ∧ ∀ s, exec row.instr s = .next (s.setReg8 row.dest (s.getReg8 row.src))
          ∧ (s.setReg8 row.dest (s.getReg8 row.src)).getReg8 row.src = s.getReg8 row.src

/-- R139: `LD r,r`, the seven rows of `selfRows`: the step changes `PC` alone, as a load of the
register into itself would. -/
def Obligations.LoadRegisterFromItself : Prop :=
  ∀ row ∈ selfRows,
    RowDecodes row.op row.instr .noOp 1
      ∧ (∀ s, exec row.instr s = .next s)
      ∧ ∀ s, s.run = .running → s.byteAt s.pc = row.op →
          step s = .next (s.setReg16 .pc (s.pc + 1#16))

/-- R140: `LD r,(HL)`, the seven rows of `fromHlRows`; the read uses `HL` before `H` or `L` is
overwritten. -/
def Obligations.LoadRegisterFromHl : Prop :=
  ∀ row ∈ fromHlRows,
    RowDecodes row.op row.instr (.load (.reg16 .hl) (.reg8 row.reg) none) 1
      ∧ ∀ s, exec row.instr s = .next (s.setReg8 row.reg (s.byteAt (s.getReg16 .hl)))

/-- R141: `LD (HL),r`, the seven rows of `toHlRows`. -/
def Obligations.StoreRegisterAtHl : Prop :=
  ∀ row ∈ toHlRows,
    RowDecodes row.op row.instr (.load (.reg8 row.reg) (.reg16 .hl) none) 1
      ∧ ∀ s, ∃ t, exec row.instr s = .next t ∧ t = s.setMem t.mem
          ∧ t.byteAt (s.getReg16 .hl) = s.getReg8 row.reg ∧ SameMemoryExcept (s.getReg16 .hl) s t

/-- R142: `LD r,n`, the seven rows of `immediateRows`, on the state after the opcode fetch: the byte at
`PC` is the immediate. -/
def Obligations.LoadRegisterImmediate : Prop :=
  ∀ row ∈ immediateRows,
    RowDecodes row.op row.instr (.load .immediate8 (.reg8 row.reg) none) 2
      ∧ ∀ s, exec row.instr s =
          .next ((s.setReg16 .pc (s.pc + 1#16)).setReg8 row.reg (s.byteAt s.pc))

/-- R143: `LD (HL),n`, on the state after the opcode fetch. -/
def Obligations.StoreImmediateAtHl : Prop :=
  RowDecodes 0b00110110#8 .ldMemHlN (.load .immediate8 (.reg16 .hl) none) 2
    ∧ ∀ s, ∃ t, exec .ldMemHlN s = .next t ∧ t = (s.setReg16 .pc (s.pc + 1#16)).setMem t.mem
        ∧ t.byteAt (s.getReg16 .hl) = s.byteAt s.pc ∧ SameMemoryExcept (s.getReg16 .hl) s t

/-- R130, R132: `LD (BC),A` and `LD (DE),A`. -/
def Obligations.StoreAThroughPair : Prop :=
  ∀ row ∈ storePairRows,
    RowDecodes row.op row.instr (.load (.reg8 .a) (.reg16 row.pair) none) 1
      ∧ ∀ s, ∃ t, exec row.instr s = .next t ∧ t = s.setMem t.mem
          ∧ t.byteAt (s.getReg16 row.pair) = s.a ∧ SameMemoryExcept (s.getReg16 row.pair) s t

/-- R131, R133: `LD A,(BC)` and `LD A,(DE)`. -/
def Obligations.LoadAThroughPair : Prop :=
  ∀ row ∈ loadPairRows,
    RowDecodes row.op row.instr (.load (.reg16 row.pair) (.reg8 .a) none) 1
      ∧ ∀ s, exec row.instr s = .next (s.setReg8 .a (s.byteAt (s.getReg16 row.pair)))

/-- R134, R136: `LD (HL+),A` and `LD (HL-),A`: the store uses `HL` before the followup. -/
def Obligations.StoreAThroughHlFollowup : Prop :=
  RowDecodes 0b00100010#8 .ldMemHlIncA (.load (.reg8 .a) (.reg16 .hl) (some .increment16)) 1
    ∧ RowDecodes 0b00110010#8 .ldMemHlDecA (.load (.reg8 .a) (.reg16 .hl) (some .decrement16)) 1
    ∧ ∀ s,
      (∃ t, exec .ldMemHlIncA s = .next t
        ∧ t = (s.setMem t.mem).setReg16 .hl (s.getReg16 .hl + 1#16)
        ∧ t.byteAt (s.getReg16 .hl) = s.a ∧ SameMemoryExcept (s.getReg16 .hl) s t)
      ∧ ∃ t, exec .ldMemHlDecA s = .next t
        ∧ t = (s.setMem t.mem).setReg16 .hl (s.getReg16 .hl - 1#16)
        ∧ t.byteAt (s.getReg16 .hl) = s.a ∧ SameMemoryExcept (s.getReg16 .hl) s t

/-- R135, R137: `LD A,(HL+)` and `LD A,(HL-)`: the read uses `HL` before the followup. -/
def Obligations.LoadAThroughHlFollowup : Prop :=
  RowDecodes 0b00101010#8 .ldAMemHlInc (.load (.reg16 .hl) (.reg8 .a) (some .increment16)) 1
    ∧ RowDecodes 0b00111010#8 .ldAMemHlDec (.load (.reg16 .hl) (.reg8 .a) (some .decrement16)) 1
    ∧ ∀ s,
      exec .ldAMemHlInc s = .next
        ((s.setReg8 .a (s.byteAt (s.getReg16 .hl))).setReg16 .hl (s.getReg16 .hl + 1#16))
      ∧ exec .ldAMemHlDec s = .next
        ((s.setReg8 .a (s.byteAt (s.getReg16 .hl))).setReg16 .hl (s.getReg16 .hl - 1#16))

/-- R170, R172, R174, R176: `INC BC`, `INC DE`, `INC HL`, `INC SP`. -/
def Obligations.IncrementPair : Prop :=
  ∀ row ∈ incRows,
    RowDecodes row.op row.instr (.increment (.reg16 row.pair)) 1
      ∧ ∀ s, ∃ t, exec row.instr s = .next t
          ∧ t = s.setReg16 row.pair (t.getReg16 row.pair)
          ∧ (t.getReg16 row.pair).toNat = ((s.getReg16 row.pair).toNat + 1) % 65536

/-- R171, R173, R175, R177: `DEC BC`, `DEC DE`, `DEC HL`, `DEC SP`. -/
def Obligations.DecrementPair : Prop :=
  ∀ row ∈ decRows,
    RowDecodes row.op row.instr (.decrement (.reg16 row.pair)) 1
      ∧ ∀ s, ∃ t, exec row.instr s = .next t
          ∧ t = s.setReg16 row.pair (t.getReg16 row.pair)
          ∧ (t.getReg16 row.pair).toNat = ((s.getReg16 row.pair).toNat + 65535) % 65536

/-- R190: `NOP`: the step changes `PC` alone. -/
def Obligations.NopDoesNothing : Prop :=
  RowDecodes 0b00000000#8 .nop .noOp 1
    ∧ (∀ s, exec .nop s = .next s)
    ∧ ∀ s, s.run = .running → s.byteAt s.pc = 0x00#8 →
        step s = .next (s.setReg16 .pc (s.pc + 1#16))

/-- The core the host seeds nothing in (the corner case of R190, derived there): `k` steps from
construction move `PC` by `k` and change nothing else, and `run()` never returns. `runFor` and `Returns`
are the model's form of `run()` (DESIGN CHOICE, log entry 10). -/
def Obligations.UnseededCoreNeverStops : Prop :=
  (∀ k, runFor k State.reset = State.reset.setReg16 .pc (BitVec.ofNat 16 k))
    ∧ ∀ t, ¬ Returns State.reset t

/-- R191: `HALT` sets the run state and changes nothing else; `PC` keeps the advance of the opcode
fetch. That `run()` returns there and the core has no further step is R101 with the spec's own decision
D2; the fault that the step answers then and the relation `Returns` are the model's own form of it
(DESIGN CHOICE, log entries 4 and 10). -/
def Obligations.HaltStopsTheCore : Prop :=
  RowDecodes 0b01110110#8 .halt .halt 1
    ∧ (∀ s, exec .halt s = .next (s.setRun .halted))
    ∧ ∀ s, s.run = .running → s.byteAt s.pc = 0x76#8 →
        step s = .next ((s.setReg16 .pc (s.pc + 1#16)).setRun .halted)
          ∧ Returns s ((s.setReg16 .pc (s.pc + 1#16)).setRun .halted)
          ∧ step ((s.setReg16 .pc (s.pc + 1#16)).setRun .halted) = .fault .halted

/-! ### Frames -/

/-- The instructions that store nothing: every byte of memory, every register but the destination, and
the run state (but for `HALT`) are unchanged. `PC` is left out. -/
def Obligations.NonStoringFormsFrame : Prop :=
  ∀ s t,
    (∀ row ∈ moveRows, exec row.instr s = .next t →
      SameRegsExcept [row.dest] s t ∧ t.sp = s.sp ∧ t.run = s.run ∧ SameMemory s t)
    ∧ (∀ row ∈ selfRows, exec row.instr s = .next t →
      SameRegsExcept [] s t ∧ t.sp = s.sp ∧ t.run = s.run ∧ SameMemory s t)
    ∧ (∀ row ∈ fromHlRows ++ immediateRows, exec row.instr s = .next t →
      SameRegsExcept [row.reg] s t ∧ t.sp = s.sp ∧ t.run = s.run ∧ SameMemory s t)
    ∧ (∀ row ∈ loadPairRows, exec row.instr s = .next t →
      SameRegsExcept [.a] s t ∧ t.sp = s.sp ∧ t.run = s.run ∧ SameMemory s t)
    ∧ (∀ i ∈ [Instr.ldAMemHlInc, .ldAMemHlDec], exec i s = .next t →
      SameRegsExcept [.a, .h, .l] s t ∧ t.sp = s.sp ∧ t.run = s.run ∧ SameMemory s t)
    ∧ (∀ row ∈ incRows ++ decRows, exec row.instr s = .next t →
      SameRegsExcept (halves row.pair) s t ∧ (row.pair ≠ .sp → t.sp = s.sp) ∧ t.run = s.run
        ∧ SameMemory s t)
    ∧ (exec .nop s = .next t →
      SameRegsExcept [] s t ∧ t.sp = s.sp ∧ t.run = s.run ∧ SameMemory s t)
    ∧ (exec .halt s = .next t → SameRegsExcept [] s t ∧ t.sp = s.sp ∧ SameMemory s t)

/-- The instructions that store one byte: every byte but the one at the address register's value, every
register (but `H` and `L` for the `(HL+)` and `(HL-)` forms) and the run state are unchanged. -/
def Obligations.StoringFormsFrame : Prop :=
  ∀ s t,
    (∀ row ∈ toHlRows, exec row.instr s = .next t →
      SameRegsExcept [] s t ∧ t.sp = s.sp ∧ t.run = s.run
        ∧ SameMemoryExcept (s.getReg16 .hl) s t)
    ∧ (∀ row ∈ storePairRows, exec row.instr s = .next t →
      SameRegsExcept [] s t ∧ t.sp = s.sp ∧ t.run = s.run
        ∧ SameMemoryExcept (s.getReg16 row.pair) s t)
    ∧ (∀ i ∈ [Instr.ldMemHlIncA, .ldMemHlDecA], exec i s = .next t →
      SameRegsExcept [.h, .l] s t ∧ t.sp = s.sp ∧ t.run = s.run
        ∧ SameMemoryExcept (s.getReg16 .hl) s t)
    ∧ (exec .ldMemHlN s = .next t →
      SameRegsExcept [] s t ∧ t.sp = s.sp ∧ t.run = s.run
        ∧ SameMemoryExcept (s.getReg16 .hl) s t)

/-! ### The executor on every kind, those the decoder never produces among them -/

/-- R106: resolving an operand as a byte. -/
def Obligations.ResolveByteByKind : Prop :=
  ∀ s : State,
    (∀ r, resolveByte (.reg8 r) s = .ok (s.getReg8 r) s)
    ∧ (∀ rr, resolveByte (.reg16 rr) s = .ok (s.byteAt (s.getReg16 rr)) s)
    ∧ resolveByte .immediate8 s = .ok (s.byteAt s.pc) (s.setReg16 .pc (s.pc + 1#16))
    ∧ resolveByte .immediate16 s = .fail (.fetchError .immediate16 .byte) s

/-- R107 with its reading of the 16-bit immediate as two byte reads, `PC` wrapping between them (the
spec's own decision D7). -/
def Obligations.ResolveWordByKind : Prop :=
  ∀ s : State,
    (∀ rr, resolveWord (.reg16 rr) s = .ok (s.getReg16 rr) s)
    ∧ (∃ w, resolveWord .immediate16 s = .ok w (s.setReg16 .pc (s.pc + 2#16))
        ∧ w.toNat = (s.byteAt (s.pc + 1#16)).toNat * 256 + (s.byteAt s.pc).toNat)
    ∧ (∀ r, resolveWord (.reg8 r) s = .fail (.fetchError (.reg8 r) .word) s)
    ∧ resolveWord .immediate8 s = .fail (.fetchError .immediate8 .word) s

/-- R108 with the order of its checks (the spec's own decision D4): an immediate destination fails
before the source is resolved; then a 16-bit immediate source fails; the address of a memory
destination is read after the source is resolved. -/
def Obligations.LoadChecksDestinationFirst : Prop :=
  ∀ (s : State) (src : Operand) (fu : Option Followup),
    applyLoad src .immediate8 fu s = .fail (.unsupported .load) s
    ∧ applyLoad src .immediate16 fu s = .fail (.unsupported .load) s
    ∧ (∀ r, applyLoad .immediate16 (.reg8 r) fu s = .fail (.fetchError .immediate16 .byte) s)
    ∧ (∀ rr, applyLoad .immediate16 (.reg16 rr) fu s = .fail (.fetchError .immediate16 .byte) s)
    ∧ (∀ dest v t, resolveByte src s = .ok v t →
        applyLoad src (.reg8 dest) none s = .ok () (t.setReg8 dest v))
    ∧ ∀ rr v t, resolveByte src s = .ok v t →
        ∃ t', applyLoad src (.reg16 rr) none s = .ok () t' ∧ t' = t.setMem t'.mem
          ∧ t'.byteAt (t.getReg16 rr) = v ∧ SameMemoryExcept (t.getReg16 rr) t t'

/-- R109 with its choice of the target (the spec's own decision D5): the destination's register if it
is a `Reg16`, else the source's, else a failure that keeps the write already made. -/
def Obligations.FollowupTarget : Prop :=
  ∀ (s t : State) (src : Operand) (fu : Followup),
    (∀ rr, applyLoad src (.reg16 rr) none s = .ok () t →
      applyLoad src (.reg16 rr) (some fu) s =
        .ok () (t.setReg16 rr (if fu = .increment16 then t.getReg16 rr + 1#16
          else t.getReg16 rr - 1#16)))
    ∧ (∀ r rr, applyLoad (.reg16 rr) (.reg8 r) none s = .ok () t →
      applyLoad (.reg16 rr) (.reg8 r) (some fu) s =
        .ok () (t.setReg16 rr (if fu = .increment16 then t.getReg16 rr + 1#16
          else t.getReg16 rr - 1#16)))
    ∧ (∀ r, src = .immediate8 ∨ (∃ r', src = .reg8 r') →
      applyLoad src (.reg8 r) none s = .ok () t →
      applyLoad src (.reg8 r) (some fu) s = .fail (.unsupported .load) t)

/-- R110 with its `Reg8` and immediate arms (the spec's own decision D6). -/
def Obligations.IncrementDecrementByKind : Prop :=
  ∀ s : State,
    (∀ rr, execute (.increment (.reg16 rr)) s = .ok () (s.setReg16 rr (s.getReg16 rr + 1#16))
      ∧ execute (.decrement (.reg16 rr)) s = .ok () (s.setReg16 rr (s.getReg16 rr - 1#16)))
    ∧ (∀ r, execute (.increment (.reg8 r)) s = .ok () (s.setReg8 r (s.getReg8 r + 1#8))
      ∧ execute (.decrement (.reg8 r)) s = .ok () (s.setReg8 r (s.getReg8 r - 1#8)))
    ∧ ∀ o, o = .immediate8 ∨ o = .immediate16 →
      execute (.increment o) s = .fail (.unsupported .increment) s
        ∧ execute (.decrement o) s = .fail (.unsupported .decrement) s

/-- R111, R112, R113: `NoOp`, `Halt` and the reserved `Arithmetic`, which the decoder never
produces. -/
def Obligations.OtherKindsExecute : Prop :=
  ∀ s : State, execute .noOp s = .ok () s ∧ execute .halt s = .ok () (s.setRun .halted)
    ∧ execute .arithmetic s = .fail (.unsupported .arithmetic) s
    ∧ ∀ op, decodeKind op ≠ .ok .arithmetic

/-! ### The host -/

/-- `run()` (R103, and R105, which the spec infers itself): from a running state it returns only where
the run state is `Halted` or `Faulted` by an unmatched opcode. That it performs no step in a terminal run
state, so that what it returns is final, rests on the spec's own decision D2, in the model's form of it:
`step`'s fault there (log entry 4), `runFor` and `Returns` (log entry 10), each a DESIGN CHOICE. -/
def Obligations.RunEndsHaltedOrUnmatched : Prop :=
  (∀ k s, s.run ≠ .running → runFor k s = s)
    ∧ ∀ s t, s.run = .running → Returns s t →
        (t.run = .halted ∨ ∃ op, IsUnmatched op ∧ t.run = .faulted (numericUnmatched op))
          ∧ (∀ k, runFor k t = t) ∧ ∀ u, Returns s u → u = t

/-- R216 as the spec reads it (its own decision D22; log entry 10): resuming writes `PC` and the run
state alone, and the next step starts from that state. -/
def Obligations.ResumeRunsAgain : Prop :=
  ∀ s pc, (resume pc s).pc = pc ∧ (resume pc s).run = .running ∧ SameRegsExcept [] s (resume pc s)
    ∧ (resume pc s).sp = s.sp ∧ (resume pc s).mem = s.mem ∧ ∃ t, step (resume pc s) = .next t
end

