-- ==== Sys2Proof/Laws/State.lean ====
section
/-! SUPPORT. One lemma per field per update of the state, and the bytes of a word. -/

namespace Sys2Proof.Machine

/-! ### Bytes of a word -/

theorem toNat_joinBytes (hi lo : Byte) : (joinBytes hi lo).toNat = hi.toNat * 256 + lo.toNat := by
  rw [joinBytes, BitVec.toNat_append, ← Nat.shiftLeft_add_eq_or_of_lt lo.isLt, Nat.shiftLeft_eq]

theorem toNat_hiByte (v : Word) : (hiByte v).toNat = v.toNat / 256 := by
  simp only [hiByte, BitVec.extractLsb'_toNat, Nat.shiftRight_eq_div_pow]
  omega

theorem toNat_loByte (v : Word) : (loByte v).toNat = v.toNat % 256 := by
  simp only [loByte, BitVec.extractLsb'_toNat, Nat.shiftRight_zero, Nat.reducePow]

@[simp] theorem hiByte_joinBytes (hi lo : Byte) : hiByte (joinBytes hi lo) = hi := by
  refine BitVec.eq_of_toNat_eq ?_
  rw [toNat_hiByte, toNat_joinBytes]
  omega

@[simp] theorem loByte_joinBytes (hi lo : Byte) : loByte (joinBytes hi lo) = lo := by
  refine BitVec.eq_of_toNat_eq ?_
  rw [toNat_loByte, toNat_joinBytes]
  omega

@[simp] theorem joinBytes_hiByte_loByte (v : Word) : joinBytes (hiByte v) (loByte v) = v := by
  refine BitVec.eq_of_toNat_eq ?_
  rw [toNat_joinBytes, toNat_hiByte, toNat_loByte]
  omega

/-! ### `setRun` and `setMem` -/

@[simp] theorem setRun_a (s : State) (r : RunState) : (s.setRun r).a = s.a := rfl
@[simp] theorem setRun_f (s : State) (r : RunState) : (s.setRun r).f = s.f := rfl
@[simp] theorem setRun_b (s : State) (r : RunState) : (s.setRun r).b = s.b := rfl
@[simp] theorem setRun_c (s : State) (r : RunState) : (s.setRun r).c = s.c := rfl
@[simp] theorem setRun_d (s : State) (r : RunState) : (s.setRun r).d = s.d := rfl
@[simp] theorem setRun_e (s : State) (r : RunState) : (s.setRun r).e = s.e := rfl
@[simp] theorem setRun_h (s : State) (r : RunState) : (s.setRun r).h = s.h := rfl
@[simp] theorem setRun_l (s : State) (r : RunState) : (s.setRun r).l = s.l := rfl
@[simp] theorem setRun_sp (s : State) (r : RunState) : (s.setRun r).sp = s.sp := rfl
@[simp] theorem setRun_pc (s : State) (r : RunState) : (s.setRun r).pc = s.pc := rfl
@[simp] theorem setRun_mem (s : State) (r : RunState) : (s.setRun r).mem = s.mem := rfl
@[simp] theorem setRun_run (s : State) (r : RunState) : (s.setRun r).run = r := rfl

@[simp] theorem setMem_a (s : State) (m : Memory) : (s.setMem m).a = s.a := rfl
@[simp] theorem setMem_f (s : State) (m : Memory) : (s.setMem m).f = s.f := rfl
@[simp] theorem setMem_b (s : State) (m : Memory) : (s.setMem m).b = s.b := rfl
@[simp] theorem setMem_c (s : State) (m : Memory) : (s.setMem m).c = s.c := rfl
@[simp] theorem setMem_d (s : State) (m : Memory) : (s.setMem m).d = s.d := rfl
@[simp] theorem setMem_e (s : State) (m : Memory) : (s.setMem m).e = s.e := rfl
@[simp] theorem setMem_h (s : State) (m : Memory) : (s.setMem m).h = s.h := rfl
@[simp] theorem setMem_l (s : State) (m : Memory) : (s.setMem m).l = s.l := rfl
@[simp] theorem setMem_sp (s : State) (m : Memory) : (s.setMem m).sp = s.sp := rfl
@[simp] theorem setMem_pc (s : State) (m : Memory) : (s.setMem m).pc = s.pc := rfl
@[simp] theorem setMem_mem (s : State) (m : Memory) : (s.setMem m).mem = m := rfl
@[simp] theorem setMem_run (s : State) (m : Memory) : (s.setMem m).run = s.run := rfl

/-! ### `setReg8` -/

@[simp] theorem setReg8_a (s : State) (r : Reg8) (v : Byte) :
    (s.setReg8 r v).a = if r = .a then v else s.a := by cases r <;> rfl
@[simp] theorem setReg8_f (s : State) (r : Reg8) (v : Byte) :
    (s.setReg8 r v).f = if r = .f then v else s.f := by cases r <;> rfl
@[simp] theorem setReg8_b (s : State) (r : Reg8) (v : Byte) :
    (s.setReg8 r v).b = if r = .b then v else s.b := by cases r <;> rfl
@[simp] theorem setReg8_c (s : State) (r : Reg8) (v : Byte) :
    (s.setReg8 r v).c = if r = .c then v else s.c := by cases r <;> rfl
@[simp] theorem setReg8_d (s : State) (r : Reg8) (v : Byte) :
    (s.setReg8 r v).d = if r = .d then v else s.d := by cases r <;> rfl
@[simp] theorem setReg8_e (s : State) (r : Reg8) (v : Byte) :
    (s.setReg8 r v).e = if r = .e then v else s.e := by cases r <;> rfl
@[simp] theorem setReg8_h (s : State) (r : Reg8) (v : Byte) :
    (s.setReg8 r v).h = if r = .h then v else s.h := by cases r <;> rfl
@[simp] theorem setReg8_l (s : State) (r : Reg8) (v : Byte) :
    (s.setReg8 r v).l = if r = .l then v else s.l := by cases r <;> rfl
@[simp] theorem setReg8_sp (s : State) (r : Reg8) (v : Byte) : (s.setReg8 r v).sp = s.sp := by
  cases r <;> rfl
@[simp] theorem setReg8_pc (s : State) (r : Reg8) (v : Byte) : (s.setReg8 r v).pc = s.pc := by
  cases r <;> rfl
@[simp] theorem setReg8_mem (s : State) (r : Reg8) (v : Byte) : (s.setReg8 r v).mem = s.mem := by
  cases r <;> rfl
@[simp] theorem setReg8_run (s : State) (r : Reg8) (v : Byte) : (s.setReg8 r v).run = s.run := by
  cases r <;> rfl

/-! ### `setReg16` -/

@[simp] theorem setReg16_a (s : State) (rr : Reg16) (v : Word) :
    (s.setReg16 rr v).a = if rr = .af then hiByte v else s.a := by cases rr <;> rfl
@[simp] theorem setReg16_f (s : State) (rr : Reg16) (v : Word) :
    (s.setReg16 rr v).f = if rr = .af then loByte v else s.f := by cases rr <;> rfl
@[simp] theorem setReg16_b (s : State) (rr : Reg16) (v : Word) :
    (s.setReg16 rr v).b = if rr = .bc then hiByte v else s.b := by cases rr <;> rfl
@[simp] theorem setReg16_c (s : State) (rr : Reg16) (v : Word) :
    (s.setReg16 rr v).c = if rr = .bc then loByte v else s.c := by cases rr <;> rfl
@[simp] theorem setReg16_d (s : State) (rr : Reg16) (v : Word) :
    (s.setReg16 rr v).d = if rr = .de then hiByte v else s.d := by cases rr <;> rfl
@[simp] theorem setReg16_e (s : State) (rr : Reg16) (v : Word) :
    (s.setReg16 rr v).e = if rr = .de then loByte v else s.e := by cases rr <;> rfl
@[simp] theorem setReg16_h (s : State) (rr : Reg16) (v : Word) :
    (s.setReg16 rr v).h = if rr = .hl then hiByte v else s.h := by cases rr <;> rfl
@[simp] theorem setReg16_l (s : State) (rr : Reg16) (v : Word) :
    (s.setReg16 rr v).l = if rr = .hl then loByte v else s.l := by cases rr <;> rfl
@[simp] theorem setReg16_sp (s : State) (rr : Reg16) (v : Word) :
    (s.setReg16 rr v).sp = if rr = .sp then v else s.sp := by cases rr <;> rfl
@[simp] theorem setReg16_pc (s : State) (rr : Reg16) (v : Word) :
    (s.setReg16 rr v).pc = if rr = .pc then v else s.pc := by cases rr <;> rfl
@[simp] theorem setReg16_mem (s : State) (rr : Reg16) (v : Word) : (s.setReg16 rr v).mem = s.mem := by
  cases rr <;> rfl
@[simp] theorem setReg16_run (s : State) (rr : Reg16) (v : Word) : (s.setReg16 rr v).run = s.run := by
  cases rr <;> rfl

/-! ### Reading registers and memory after an update -/

@[simp] theorem getReg8_setMem (s : State) (m : Memory) (r : Reg8) :
    (s.setMem m).getReg8 r = s.getReg8 r := by cases r <;> rfl

@[simp] theorem getReg8_setRun (s : State) (x : RunState) (r : Reg8) :
    (s.setRun x).getReg8 r = s.getReg8 r := by cases r <;> rfl

@[simp] theorem getReg16_setMem (s : State) (m : Memory) (rr : Reg16) :
    (s.setMem m).getReg16 rr = s.getReg16 rr := by cases rr <;> rfl

@[simp] theorem getReg16_setRun (s : State) (x : RunState) (rr : Reg16) :
    (s.setRun x).getReg16 rr = s.getReg16 rr := by cases rr <;> rfl

/-- A pair that does not hold `r`, or `SP` or `PC`, leaves `r` unchanged when written. -/
theorem getReg8_setReg16_sp (s : State) (v : Word) (r : Reg8) :
    (s.setReg16 .sp v).getReg8 r = s.getReg8 r := by cases r <;> rfl

theorem getReg8_setReg16_pc (s : State) (v : Word) (r : Reg8) :
    (s.setReg16 .pc v).getReg8 r = s.getReg8 r := by cases r <;> rfl

@[simp] theorem byteAt_setRun (s : State) (x : RunState) (a : Word) :
    (s.setRun x).byteAt a = s.byteAt a := rfl

@[simp] theorem byteAt_setReg8 (s : State) (r : Reg8) (v : Byte) (a : Word) :
    (s.setReg8 r v).byteAt a = s.byteAt a := by simp [State.byteAt]

@[simp] theorem byteAt_setReg16 (s : State) (rr : Reg16) (v : Word) (a : Word) :
    (s.setReg16 rr v).byteAt a = s.byteAt a := by simp [State.byteAt]

end Sys2Proof.Machine
end

