-- ==== Sys2Proof/Laws/Memory.lean ====
section
/-! SUPPORT. The memory array: reading after a write, and that every memory operation keeps the
canonical form. -/

namespace Sys2Proof.Machine

/-! ### Reading -/

theorem read_erase_same (m : Memory) (a : Nat) : (m.erase a).read a = 0x00#8 := by
  induction m with
  | nil => rfl
  | cons x m ih =>
    by_cases h : x.1 = a
    · simpa [Memory.erase, List.filter_cons, h] using ih
    · simpa [Memory.erase, List.filter_cons, h, Memory.read] using ih

theorem read_erase_other (m : Memory) {a b : Nat} (hab : b ≠ a) :
    (m.erase a).read b = m.read b := by
  induction m with
  | nil => rfl
  | cons x m ih =>
    by_cases h : x.1 = a
    · have hb : x.1 ≠ b := fun hxb => hab (hxb ▸ h)
      simpa [Memory.erase, List.filter_cons, h, Memory.read, Ne.symm hab] using ih
    · simp only [Memory.erase] at ih
      simp [Memory.erase, h, Memory.read, ih]

theorem read_insert_same (m : Memory) (a : Nat) (v : Byte) (h : ∀ x ∈ m, x.1 ≠ a) :
    (m.insert a v).read a = v := by
  induction m with
  | nil => simp [Memory.insert, Memory.read]
  | cons x m ih =>
    have hx : x.1 ≠ a := h x (by simp)
    by_cases hlt : a < x.1
    · simp [Memory.insert, hlt, Memory.read]
    · simp [Memory.insert, hlt, Memory.read, hx, ih fun y hy => h y (by simp [hy])]

theorem read_insert_other (m : Memory) {a b : Nat} (v : Byte) (hab : b ≠ a) :
    (m.insert a v).read b = m.read b := by
  induction m with
  | nil => simp [Memory.insert, Memory.read, Ne.symm hab]
  | cons x m ih =>
    by_cases hlt : a < x.1
    · simp [Memory.insert, hlt, Memory.read, Ne.symm hab]
    · simp [Memory.insert, hlt, Memory.read, ih]

theorem erase_ne (m : Memory) (a : Nat) : ∀ x ∈ m.erase a, x.1 ≠ a := by
  intro x hx
  simpa using (List.mem_filter.mp hx).2

/-- A read of the address just written gives the value written, in every memory. -/
@[simp] theorem read_write_same (m : Memory) (a : Nat) (v : Byte) : (m.write a v).read a = v := by
  unfold Memory.write
  split
  · next h => rw [read_erase_same, h]
  · exact read_insert_same _ _ _ (erase_ne m a)

/-- A write leaves every other address as it was, in every memory. -/
theorem read_write_other (m : Memory) {a b : Nat} (v : Byte) (hab : b ≠ a) :
    (m.write a v).read b = m.read b := by
  unfold Memory.write
  split
  · exact read_erase_other m hab
  · rw [read_insert_other _ v hab, read_erase_other m hab]

/-! ### The canonical form -/

theorem wf_nil : Memory.wf [] := ⟨.nil, fun _ h => nomatch h⟩

theorem erase_wf {m : Memory} (a : Nat) (h : m.wf) : (m.erase a).wf :=
  ⟨h.1.filter _, fun x hx => h.2 x (List.mem_filter.mp hx).1⟩

theorem mem_insert {m : Memory} {a : Nat} {v : Byte} {x : Host.Cell} (hx : x ∈ m.insert a v) :
    x = (a, v) ∨ x ∈ m := by
  induction m with
  | nil => simpa [Memory.insert] using hx
  | cons y m ih =>
    by_cases hlt : a < y.1
    · simpa [Memory.insert, hlt] using hx
    · simp only [Memory.insert, hlt, if_false, List.mem_cons] at hx ⊢
      rcases hx with rfl | hx
      · exact .inr (.inl rfl)
      · exact (ih hx).imp_right .inr

theorem insert_sorted {m : Memory} (a : Nat) (v : Byte) (h : m.Pairwise (fun x y => x.1 < y.1))
    (hne : ∀ x ∈ m, x.1 ≠ a) : (m.insert a v).Pairwise (fun x y => x.1 < y.1) := by
  induction m with
  | nil => simp [Memory.insert]
  | cons y m ih =>
    obtain ⟨hy, hm⟩ := List.pairwise_cons.mp h
    by_cases hlt : a < y.1
    · simp only [Memory.insert, hlt, if_true]
      refine List.pairwise_cons.mpr ⟨fun z hz => ?_, h⟩
      rcases List.mem_cons.mp hz with rfl | hz
      · exact hlt
      · exact lt_trans hlt (hy z hz)
    · simp only [Memory.insert, hlt, if_false]
      refine List.pairwise_cons.mpr ⟨fun z hz => ?_, ih hm fun x hx => hne x (by simp [hx])⟩
      have hya : y.1 ≠ a := hne y (by simp)
      rcases mem_insert hz with rfl | hz
      · show y.1 < a
        omega
      · exact hy z hz

theorem write_wf {m : Memory} {a : Nat} (v : Byte) (ha : a < Config.memSize) (h : m.wf) :
    (m.write a v).wf := by
  have he := erase_wf a h
  unfold Memory.write
  split
  · exact he
  · next hv =>
    refine ⟨insert_sorted a v he.1 (erase_ne m a), fun x hx => ?_⟩
    rcases mem_insert hx with rfl | hx
    · exact ⟨ha, hv⟩
    · exact he.2 x hx

theorem writeList_wf {m : Memory} {a : Nat} (vs : List Byte) (ha : a + vs.length ≤ Config.memSize)
    (h : m.wf) : (m.writeList a vs).wf := by
  induction vs generalizing m a with
  | nil => exact h
  | cons v vs ih =>
    simp only [List.length_cons] at ha
    exact ih (by omega) (write_wf v (by omega) h)

/-- A 16-bit address is inside the memory (R8). -/
theorem toNat_lt_memSize (a : Word) : a.toNat < Config.memSize := a.isLt

end Sys2Proof.Machine
end

