-- ==== Sys2Proof/Laws/Ops.lean ====
section
/-! SUPPORT. What each shared access and sequencing operation can do, said once. -/

namespace Sys2Proof.Machine

@[simp] theorem andThen_ok {α β : Type} (v : α) (s : State) (k : α → State → Res β) :
    andThen (.ok v s) k = k v s := rfl

@[simp] theorem andThen_fail {α β : Type} (e : Failure) (s : State) (k : α → State → Res β) :
    andThen (.fail e s : Res α) k = .fail e s := rfl

@[simp] theorem finish_ok (u : Unit) (s : State) : finish (.ok u s) = .next s := rfl

@[simp] theorem finish_fail (e : Failure) (s : State) :
    finish (.fail e s) = .next (raiseFailure e s) := rfl

/-- A byte read at a 16-bit address gives that byte, and changes no state. -/
@[simp] theorem readByte_eq (addr : Word) (s : State) : readByte addr s = .ok (s.byteAt addr) s :=
  if_neg (by have := toNat_lt_memSize addr; omega)

/-- A byte write at a 16-bit address writes that byte and nothing else. -/
@[simp] theorem writeByte_eq (addr : Word) (v : Byte) (s : State) :
    writeByte addr v s = .ok () (s.setMem (s.mem.write addr.toNat v)) :=
  if_neg (by have := toNat_lt_memSize addr; omega)

/-- Everything a host's read can do: the bytes in order, or the failure, in the same state either way
(R51; log entry 12). -/
theorem memRead_cases (addr : Word) (n : Nat) (s : State) :
    (addr.toNat + n ≤ Config.memSize ∧ memRead addr n s = .ok (s.mem.readList addr.toNat n) s)
      ∨ (Config.memSize < addr.toNat + n ∧ memRead addr n s = .fail (.memoryOverflow addr n) s) := by
  unfold memRead
  split
  · next h => exact .inr ⟨h, rfl⟩
  · next h => exact .inl ⟨Nat.le_of_not_gt h, rfl⟩

/-- Everything a host's write can do: all the bytes, or the failure in the same state (R52; log
entry 12). -/
theorem memWrite_cases (addr : Word) (bytes : List Byte) (s : State) :
    (addr.toNat + bytes.length ≤ Config.memSize ∧
        memWrite addr bytes s = .ok () (s.setMem (s.mem.writeList addr.toNat bytes)))
      ∨ (Config.memSize < addr.toNat + bytes.length ∧
        memWrite addr bytes s = .fail (.memoryOverflow addr bytes.length) s) := by
  unfold memWrite
  split
  · next h => exact .inr ⟨h, rfl⟩
  · next h => exact .inl ⟨Nat.le_of_not_gt h, rfl⟩

/-- A host's write keeps the memory canonical, whether it completes or fails. -/
theorem memWrite_wf {addr : Word} {bytes : List Byte} {s : State} (h : s.mem.wf) :
    (∀ t, memWrite addr bytes s = .ok () t → t.mem.wf)
      ∧ ∀ e t, memWrite addr bytes s = .fail e t → t.mem.wf := by
  obtain ⟨hb, hw⟩ | ⟨-, hw⟩ := memWrite_cases addr bytes s
  · rw [hw]
    exact ⟨fun t ht => by cases ht; exact writeList_wf bytes hb h, fun _ _ ht => nomatch ht⟩
  · rw [hw]
    exact ⟨fun _ ht => (nomatch ht), fun e t ht => by cases ht; exact h⟩

/-- Fetching a byte gives the byte at `PC` and advances `PC` by one. -/
@[simp] theorem fetchByte_eq (s : State) :
    fetchByte s = .ok (s.byteAt s.pc) (s.setReg16 .pc (s.pc + 1#16)) := by
  simp [fetchByte, State.incReg16, State.getReg16]

@[simp] theorem incReg8_eq (s : State) (r : Reg8) :
    s.incReg8 r = s.setReg8 r (s.getReg8 r + 1#8) := rfl

@[simp] theorem decReg8_eq (s : State) (r : Reg8) :
    s.decReg8 r = s.setReg8 r (s.getReg8 r - 1#8) := rfl

@[simp] theorem incReg16_eq (s : State) (rr : Reg16) :
    s.incReg16 rr = s.setReg16 rr (s.getReg16 rr + 1#16) := rfl

@[simp] theorem decReg16_eq (s : State) (rr : Reg16) :
    s.decReg16 rr = s.setReg16 rr (s.getReg16 rr - 1#16) := rfl

@[simp] theorem raiseFailure_eq (e : Failure) (s : State) :
    raiseFailure e s = s.setRun (.faulted e) := rfl

@[simp] theorem byteAt_write_same (s : State) (a : Word) (v : Byte) :
    (s.setMem (s.mem.write a.toNat v)).byteAt a = v := by simp [State.byteAt]

theorem byteAt_write_other (s : State) {a b : Word} (v : Byte) (hab : b ≠ a) :
    (s.setMem (s.mem.write a.toNat v)).byteAt b = s.byteAt b := by
  have h : b.toNat ≠ a.toNat := fun h => hab (BitVec.eq_of_toNat_eq h)
  simp [State.byteAt, read_write_other _ v h]

end Sys2Proof.Machine
end

