-- ==== Sys2Proof/Laws/Executor.lean ====
section
/-! SUPPORT. What each operation of the executor can do, said once, and that the meaning of a row is
the executor's operation for what the row decodes to. -/

namespace Sys2Proof.Machine

/-- The meaning of a row is `Execute` of what it decodes to. -/
theorem exec_eq_finish_execute (i : Instr) (s : State) : exec i s = finish (execute i.kind s) := by
  cases i <;> rfl

@[simp] theorem resolveByte_reg8 (r : Reg8) (s : State) :
    resolveByte (.reg8 r) s = .ok (s.getReg8 r) s := rfl

@[simp] theorem resolveByte_reg16 (rr : Reg16) (s : State) :
    resolveByte (.reg16 rr) s = .ok (s.byteAt (s.getReg16 rr)) s := by simp [resolveByte]

@[simp] theorem resolveByte_immediate8 (s : State) :
    resolveByte .immediate8 s = .ok (s.byteAt s.pc) (s.setReg16 .pc (s.pc + 1#16)) := by
  simp [resolveByte]

@[simp] theorem applyMove_reg8_reg8 (src dest : Reg8) (s : State) :
    applyMove (.reg8 src) (.reg8 dest) s = .ok () (s.setReg8 dest (s.getReg8 src)) := rfl

@[simp] theorem applyMove_reg16_reg8 (src : Reg16) (dest : Reg8) (s : State) :
    applyMove (.reg16 src) (.reg8 dest) s
      = .ok () (s.setReg8 dest (s.byteAt (s.getReg16 src))) := by simp [applyMove]

@[simp] theorem applyMove_reg8_reg16 (src : Reg8) (dest : Reg16) (s : State) :
    applyMove (.reg8 src) (.reg16 dest) s
      = .ok () (s.setMem (s.mem.write (s.getReg16 dest).toNat (s.getReg8 src))) := by
  simp [applyMove]

@[simp] theorem applyMove_immediate8_reg8 (dest : Reg8) (s : State) :
    applyMove .immediate8 (.reg8 dest) s
      = .ok () ((s.setReg16 .pc (s.pc + 1#16)).setReg8 dest (s.byteAt s.pc)) := by
  simp [applyMove]

@[simp] theorem applyLoad_none (src dest : Operand) (s : State) :
    applyLoad src dest none s = applyMove src dest s := rfl

@[simp] theorem applyLoad_some (src dest : Operand) (fu : Followup) (s : State) :
    applyLoad src dest (some fu) s
      = andThen (applyMove src dest s) fun _ s1 => applyFollowup src dest fu s1 := rfl

@[simp] theorem applyFollowup_dest (src : Operand) (rr : Reg16) (fu : Followup) (s : State) :
    applyFollowup src (.reg16 rr) fu s = .ok () (followupReg16 fu rr s) := by
  cases src <;> rfl

@[simp] theorem applyFollowup_src (rr : Reg16) (r : Reg8) (fu : Followup) (s : State) :
    applyFollowup (.reg16 rr) (.reg8 r) fu s = .ok () (followupReg16 fu rr s) := rfl

/-- A followup writes one 16-bit register: one more, or one less. -/
theorem followupReg16_eq (fu : Followup) (rr : Reg16) (s : State) :
    followupReg16 fu rr s = s.incReg16 rr ∨ followupReg16 fu rr s = s.decReg16 rr := by
  cases fu
  · exact .inl rfl
  · exact .inr rfl

end Sys2Proof.Machine
end

