-- ==== Sys2Proof/Laws/PerInstr.lean ====
section
/-! SUPPORT. Statements about each instruction as syntax: one family, one lemma per constructor. -/

namespace Sys2Proof.Laws

/-- Every row's opcode lies in 0x00..0x7F, that is `x` is 0 or 1 (R83: every byte 0x80..0xFF is
unmatched), and the encoding has the length R85 tells from the opcode, whatever the immediate. -/
def OpcodeShape.Statement (i : Instr) : Prop :=
  (fieldX i.opcode = 0#2 ∨ fieldX i.opcode = 1#2) ∧
    ∀ n, (encode i n).length = i.length ∧ (encode i n).head? = some i.opcode

/-- The length clause from the length being one or two. -/
theorem opcodeShape_of_field {i : Instr} (h : fieldX i.opcode = 0#2 ∨ fieldX i.opcode = 1#2) :
    OpcodeShape.Statement i := by
  refine ⟨h, fun n => ?_⟩
  unfold encode Instr.length opcodeLength
  split <;> simp

theorem OpcodeShape.nop : OpcodeShape.Statement .nop := opcodeShape_of_field (by decide)
theorem OpcodeShape.ldMemBcA : OpcodeShape.Statement .ldMemBcA := opcodeShape_of_field (by decide)
theorem OpcodeShape.incBc : OpcodeShape.Statement .incBc := opcodeShape_of_field (by decide)
theorem OpcodeShape.ldBN : OpcodeShape.Statement .ldBN := opcodeShape_of_field (by decide)
theorem OpcodeShape.ldAMemBc : OpcodeShape.Statement .ldAMemBc := opcodeShape_of_field (by decide)
theorem OpcodeShape.decBc : OpcodeShape.Statement .decBc := opcodeShape_of_field (by decide)
theorem OpcodeShape.ldCN : OpcodeShape.Statement .ldCN := opcodeShape_of_field (by decide)
theorem OpcodeShape.ldMemDeA : OpcodeShape.Statement .ldMemDeA := opcodeShape_of_field (by decide)
theorem OpcodeShape.incDe : OpcodeShape.Statement .incDe := opcodeShape_of_field (by decide)
theorem OpcodeShape.ldDN : OpcodeShape.Statement .ldDN := opcodeShape_of_field (by decide)
theorem OpcodeShape.ldAMemDe : OpcodeShape.Statement .ldAMemDe := opcodeShape_of_field (by decide)
theorem OpcodeShape.decDe : OpcodeShape.Statement .decDe := opcodeShape_of_field (by decide)
theorem OpcodeShape.ldEN : OpcodeShape.Statement .ldEN := opcodeShape_of_field (by decide)
theorem OpcodeShape.ldMemHlIncA : OpcodeShape.Statement .ldMemHlIncA := opcodeShape_of_field (by decide)
theorem OpcodeShape.incHl : OpcodeShape.Statement .incHl := opcodeShape_of_field (by decide)
theorem OpcodeShape.ldHN : OpcodeShape.Statement .ldHN := opcodeShape_of_field (by decide)
theorem OpcodeShape.ldAMemHlInc : OpcodeShape.Statement .ldAMemHlInc := opcodeShape_of_field (by decide)
theorem OpcodeShape.decHl : OpcodeShape.Statement .decHl := opcodeShape_of_field (by decide)
theorem OpcodeShape.ldLN : OpcodeShape.Statement .ldLN := opcodeShape_of_field (by decide)
theorem OpcodeShape.ldMemHlDecA : OpcodeShape.Statement .ldMemHlDecA := opcodeShape_of_field (by decide)
theorem OpcodeShape.incSp : OpcodeShape.Statement .incSp := opcodeShape_of_field (by decide)
theorem OpcodeShape.ldMemHlN : OpcodeShape.Statement .ldMemHlN := opcodeShape_of_field (by decide)
theorem OpcodeShape.ldAMemHlDec : OpcodeShape.Statement .ldAMemHlDec := opcodeShape_of_field (by decide)
theorem OpcodeShape.decSp : OpcodeShape.Statement .decSp := opcodeShape_of_field (by decide)
theorem OpcodeShape.ldAN : OpcodeShape.Statement .ldAN := opcodeShape_of_field (by decide)
theorem OpcodeShape.ldBB : OpcodeShape.Statement .ldBB := opcodeShape_of_field (by decide)
theorem OpcodeShape.ldBC : OpcodeShape.Statement .ldBC := opcodeShape_of_field (by decide)
theorem OpcodeShape.ldBD : OpcodeShape.Statement .ldBD := opcodeShape_of_field (by decide)
theorem OpcodeShape.ldBE : OpcodeShape.Statement .ldBE := opcodeShape_of_field (by decide)
theorem OpcodeShape.ldBH : OpcodeShape.Statement .ldBH := opcodeShape_of_field (by decide)
theorem OpcodeShape.ldBL : OpcodeShape.Statement .ldBL := opcodeShape_of_field (by decide)
theorem OpcodeShape.ldBMemHl : OpcodeShape.Statement .ldBMemHl := opcodeShape_of_field (by decide)
theorem OpcodeShape.ldBA : OpcodeShape.Statement .ldBA := opcodeShape_of_field (by decide)
theorem OpcodeShape.ldCB : OpcodeShape.Statement .ldCB := opcodeShape_of_field (by decide)
theorem OpcodeShape.ldCC : OpcodeShape.Statement .ldCC := opcodeShape_of_field (by decide)
theorem OpcodeShape.ldCD : OpcodeShape.Statement .ldCD := opcodeShape_of_field (by decide)
theorem OpcodeShape.ldCE : OpcodeShape.Statement .ldCE := opcodeShape_of_field (by decide)
theorem OpcodeShape.ldCH : OpcodeShape.Statement .ldCH := opcodeShape_of_field (by decide)
theorem OpcodeShape.ldCL : OpcodeShape.Statement .ldCL := opcodeShape_of_field (by decide)
theorem OpcodeShape.ldCMemHl : OpcodeShape.Statement .ldCMemHl := opcodeShape_of_field (by decide)
theorem OpcodeShape.ldCA : OpcodeShape.Statement .ldCA := opcodeShape_of_field (by decide)
theorem OpcodeShape.ldDB : OpcodeShape.Statement .ldDB := opcodeShape_of_field (by decide)
theorem OpcodeShape.ldDC : OpcodeShape.Statement .ldDC := opcodeShape_of_field (by decide)
theorem OpcodeShape.ldDD : OpcodeShape.Statement .ldDD := opcodeShape_of_field (by decide)
theorem OpcodeShape.ldDE : OpcodeShape.Statement .ldDE := opcodeShape_of_field (by decide)
theorem OpcodeShape.ldDH : OpcodeShape.Statement .ldDH := opcodeShape_of_field (by decide)
theorem OpcodeShape.ldDL : OpcodeShape.Statement .ldDL := opcodeShape_of_field (by decide)
theorem OpcodeShape.ldDMemHl : OpcodeShape.Statement .ldDMemHl := opcodeShape_of_field (by decide)
theorem OpcodeShape.ldDA : OpcodeShape.Statement .ldDA := opcodeShape_of_field (by decide)
theorem OpcodeShape.ldEB : OpcodeShape.Statement .ldEB := opcodeShape_of_field (by decide)
theorem OpcodeShape.ldEC : OpcodeShape.Statement .ldEC := opcodeShape_of_field (by decide)
theorem OpcodeShape.ldED : OpcodeShape.Statement .ldED := opcodeShape_of_field (by decide)
theorem OpcodeShape.ldEE : OpcodeShape.Statement .ldEE := opcodeShape_of_field (by decide)
theorem OpcodeShape.ldEH : OpcodeShape.Statement .ldEH := opcodeShape_of_field (by decide)
theorem OpcodeShape.ldEL : OpcodeShape.Statement .ldEL := opcodeShape_of_field (by decide)
theorem OpcodeShape.ldEMemHl : OpcodeShape.Statement .ldEMemHl := opcodeShape_of_field (by decide)
theorem OpcodeShape.ldEA : OpcodeShape.Statement .ldEA := opcodeShape_of_field (by decide)
theorem OpcodeShape.ldHB : OpcodeShape.Statement .ldHB := opcodeShape_of_field (by decide)
theorem OpcodeShape.ldHC : OpcodeShape.Statement .ldHC := opcodeShape_of_field (by decide)
theorem OpcodeShape.ldHD : OpcodeShape.Statement .ldHD := opcodeShape_of_field (by decide)
theorem OpcodeShape.ldHE : OpcodeShape.Statement .ldHE := opcodeShape_of_field (by decide)
theorem OpcodeShape.ldHH : OpcodeShape.Statement .ldHH := opcodeShape_of_field (by decide)
theorem OpcodeShape.ldHL : OpcodeShape.Statement .ldHL := opcodeShape_of_field (by decide)
theorem OpcodeShape.ldHMemHl : OpcodeShape.Statement .ldHMemHl := opcodeShape_of_field (by decide)
theorem OpcodeShape.ldHA : OpcodeShape.Statement .ldHA := opcodeShape_of_field (by decide)
theorem OpcodeShape.ldLB : OpcodeShape.Statement .ldLB := opcodeShape_of_field (by decide)
theorem OpcodeShape.ldLC : OpcodeShape.Statement .ldLC := opcodeShape_of_field (by decide)
theorem OpcodeShape.ldLD : OpcodeShape.Statement .ldLD := opcodeShape_of_field (by decide)
theorem OpcodeShape.ldLE : OpcodeShape.Statement .ldLE := opcodeShape_of_field (by decide)
theorem OpcodeShape.ldLH : OpcodeShape.Statement .ldLH := opcodeShape_of_field (by decide)
theorem OpcodeShape.ldLL : OpcodeShape.Statement .ldLL := opcodeShape_of_field (by decide)
theorem OpcodeShape.ldLMemHl : OpcodeShape.Statement .ldLMemHl := opcodeShape_of_field (by decide)
theorem OpcodeShape.ldLA : OpcodeShape.Statement .ldLA := opcodeShape_of_field (by decide)
theorem OpcodeShape.ldMemHlB : OpcodeShape.Statement .ldMemHlB := opcodeShape_of_field (by decide)
theorem OpcodeShape.ldMemHlC : OpcodeShape.Statement .ldMemHlC := opcodeShape_of_field (by decide)
theorem OpcodeShape.ldMemHlD : OpcodeShape.Statement .ldMemHlD := opcodeShape_of_field (by decide)
theorem OpcodeShape.ldMemHlE : OpcodeShape.Statement .ldMemHlE := opcodeShape_of_field (by decide)
theorem OpcodeShape.ldMemHlH : OpcodeShape.Statement .ldMemHlH := opcodeShape_of_field (by decide)
theorem OpcodeShape.ldMemHlL : OpcodeShape.Statement .ldMemHlL := opcodeShape_of_field (by decide)
theorem OpcodeShape.halt : OpcodeShape.Statement .halt := opcodeShape_of_field (by decide)
theorem OpcodeShape.ldMemHlA : OpcodeShape.Statement .ldMemHlA := opcodeShape_of_field (by decide)
theorem OpcodeShape.ldAB : OpcodeShape.Statement .ldAB := opcodeShape_of_field (by decide)
theorem OpcodeShape.ldAC : OpcodeShape.Statement .ldAC := opcodeShape_of_field (by decide)
theorem OpcodeShape.ldAD : OpcodeShape.Statement .ldAD := opcodeShape_of_field (by decide)
theorem OpcodeShape.ldAE : OpcodeShape.Statement .ldAE := opcodeShape_of_field (by decide)
theorem OpcodeShape.ldAH : OpcodeShape.Statement .ldAH := opcodeShape_of_field (by decide)
theorem OpcodeShape.ldAL : OpcodeShape.Statement .ldAL := opcodeShape_of_field (by decide)
theorem OpcodeShape.ldAMemHl : OpcodeShape.Statement .ldAMemHl := opcodeShape_of_field (by decide)
theorem OpcodeShape.ldAA : OpcodeShape.Statement .ldAA := opcodeShape_of_field (by decide)

end Sys2Proof.Laws
end

