-- ==== Sys2Proof/Laws/Step.lean ====
section
/-! SUPPORT. What a step can do, said once. -/

namespace Sys2Proof.Machine

/-- Fetching gives the row the byte at `PC` decodes to, or the decoder's failure, with `PC` advanced by
one either way. -/
theorem fetchInstr_eq (s : State) :
    fetchInstr s =
      match decode (s.byteAt s.pc) with
      | .ok i => .ok i (s.setReg16 .pc (s.pc + 1#16))
      | .error e => .fail e (s.setReg16 .pc (s.pc + 1#16)) := by
  cases hd : decode (s.byteAt s.pc) <;> simp [fetchInstr, hd]

/-- What a step does in the run state `Running`. -/
theorem step_of_running {s : State} (h : s.run = .running) :
    step s =
      match decode (s.byteAt s.pc) with
      | .ok i => exec i (s.setReg16 .pc (s.pc + 1#16))
      | .error e => .next (raiseFailure e (s.setReg16 .pc (s.pc + 1#16))) := by
  simp only [step, h, fetchInstr_eq]
  cases decode (s.byteAt s.pc) <;> rfl

/-- A step that has a next state ran a decoded instruction, or raised a decode failure. -/
theorem step_next_cases {s t : State} (h : step s = .next t) :
    s.run = .running ∧
      ((∃ i, decode (s.byteAt s.pc) = .ok i ∧ exec i (s.setReg16 .pc (s.pc + 1#16)) = .next t) ∨
        ∃ e, decode (s.byteAt s.pc) = .error e ∧
          t = raiseFailure e (s.setReg16 .pc (s.pc + 1#16))) := by
  cases hr : s.run with
  | running =>
    rw [step_of_running hr] at h
    refine ⟨rfl, ?_⟩
    cases hd : decode (s.byteAt s.pc) with
    | ok i => exact .inl ⟨i, rfl, by simpa only [hd] using h⟩
    | error e =>
      simp only [hd, Host.Outcome.next.injEq] at h
      exact .inr ⟨e, rfl, h.symm⟩
  | halted => simp [step, hr] at h
  | faulted e => simp [step, hr] at h

end Sys2Proof.Machine
end

