-- ==== Sys2Proof/Tests/Slice0.lean ====
section
/-! SUPPORT. Tests: ill-formed terms refused, words written out from the spec's encodings, the vectors
of spec/95_test_vectors.md, and witnesses that the statements' hypotheses can be met. -/

namespace Sys2Proof.Tests

open Sys2Proof Sys2Proof.Machine

set_option maxRecDepth 20000

/-! ### Well-formedness: one ill-formed term for each check (R116) -/

theorem test_wf_load_to_immediate8 : (Kind.load (.reg8 .a) .immediate8 none).wellFormed = false := by decide
theorem test_wf_load_to_immediate16 : (Kind.load (.reg8 .a) .immediate16 none).wellFormed = false := by decide
theorem test_wf_load_from_immediate16 : (Kind.load .immediate16 (.reg8 .a) none).wellFormed = false := by decide
theorem test_wf_followup_without_address :
    (Kind.load (.reg8 .a) (.reg8 .b) (some .increment16)).wellFormed = false := by decide
theorem test_wf_increment_reg8 : (Kind.increment (.reg8 .b)).wellFormed = false := by decide
theorem test_wf_increment_immediate : (Kind.increment .immediate8).wellFormed = false := by decide
theorem test_wf_decrement_reg8 : (Kind.decrement (.reg8 .b)).wellFormed = false := by decide
theorem test_wf_decrement_immediate : (Kind.decrement .immediate16).wellFormed = false := by decide
theorem test_wf_arithmetic : Kind.arithmetic.wellFormed = false := by decide
theorem test_wf_accepts :
    (Kind.load .immediate8 (.reg16 .hl) none).wellFormed = true
      ∧ (Kind.load (.reg16 .hl) (.reg8 .a) (some .decrement16)).wellFormed = true
      ∧ (Kind.increment (.reg16 .sp)).wellFormed = true := by decide

/-! ### Decoding: a word written out from the encoding of each constructor (30_encoding.md R82, the
encodings of R130-R143, R170-R177, R190, R191), in pieces by the fields x and y -/

/-- `NOP` and the indirect loads. -/
theorem test_decode_x0_z0_z2 :
    decode 0b00000000#8 = .ok .nop
      ∧ decode 0b00000010#8 = .ok .ldMemBcA
      ∧ decode 0b00001010#8 = .ok .ldAMemBc
      ∧ decode 0b00010010#8 = .ok .ldMemDeA
      ∧ decode 0b00011010#8 = .ok .ldAMemDe
      ∧ decode 0b00100010#8 = .ok .ldMemHlIncA
      ∧ decode 0b00101010#8 = .ok .ldAMemHlInc
      ∧ decode 0b00110010#8 = .ok .ldMemHlDecA
      ∧ decode 0b00111010#8 = .ok .ldAMemHlDec := by decide

/-- `INC rr`, `DEC rr`. -/
theorem test_decode_x0_z3 :
    decode 0b00000011#8 = .ok .incBc
      ∧ decode 0b00001011#8 = .ok .decBc
      ∧ decode 0b00010011#8 = .ok .incDe
      ∧ decode 0b00011011#8 = .ok .decDe
      ∧ decode 0b00100011#8 = .ok .incHl
      ∧ decode 0b00101011#8 = .ok .decHl
      ∧ decode 0b00110011#8 = .ok .incSp
      ∧ decode 0b00111011#8 = .ok .decSp := by decide

/-- `LD r,n`, `LD (HL),n`. -/
theorem test_decode_x0_z6 :
    decode 0b00000110#8 = .ok .ldBN
      ∧ decode 0b00001110#8 = .ok .ldCN
      ∧ decode 0b00010110#8 = .ok .ldDN
      ∧ decode 0b00011110#8 = .ok .ldEN
      ∧ decode 0b00100110#8 = .ok .ldHN
      ∧ decode 0b00101110#8 = .ok .ldLN
      ∧ decode 0b00110110#8 = .ok .ldMemHlN
      ∧ decode 0b00111110#8 = .ok .ldAN := by decide

/-- x=1, y=0. -/
theorem test_decode_x1_b :
    decode 0b01000000#8 = .ok .ldBB
      ∧ decode 0b01000001#8 = .ok .ldBC
      ∧ decode 0b01000010#8 = .ok .ldBD
      ∧ decode 0b01000011#8 = .ok .ldBE
      ∧ decode 0b01000100#8 = .ok .ldBH
      ∧ decode 0b01000101#8 = .ok .ldBL
      ∧ decode 0b01000110#8 = .ok .ldBMemHl
      ∧ decode 0b01000111#8 = .ok .ldBA := by decide

/-- x=1, y=1. -/
theorem test_decode_x1_c :
    decode 0b01001000#8 = .ok .ldCB
      ∧ decode 0b01001001#8 = .ok .ldCC
      ∧ decode 0b01001010#8 = .ok .ldCD
      ∧ decode 0b01001011#8 = .ok .ldCE
      ∧ decode 0b01001100#8 = .ok .ldCH
      ∧ decode 0b01001101#8 = .ok .ldCL
      ∧ decode 0b01001110#8 = .ok .ldCMemHl
      ∧ decode 0b01001111#8 = .ok .ldCA := by decide

/-- x=1, y=2. -/
theorem test_decode_x1_d :
    decode 0b01010000#8 = .ok .ldDB
      ∧ decode 0b01010001#8 = .ok .ldDC
      ∧ decode 0b01010010#8 = .ok .ldDD
      ∧ decode 0b01010011#8 = .ok .ldDE
      ∧ decode 0b01010100#8 = .ok .ldDH
      ∧ decode 0b01010101#8 = .ok .ldDL
      ∧ decode 0b01010110#8 = .ok .ldDMemHl
      ∧ decode 0b01010111#8 = .ok .ldDA := by decide

/-- x=1, y=3. -/
theorem test_decode_x1_e :
    decode 0b01011000#8 = .ok .ldEB
      ∧ decode 0b01011001#8 = .ok .ldEC
      ∧ decode 0b01011010#8 = .ok .ldED
      ∧ decode 0b01011011#8 = .ok .ldEE
      ∧ decode 0b01011100#8 = .ok .ldEH
      ∧ decode 0b01011101#8 = .ok .ldEL
      ∧ decode 0b01011110#8 = .ok .ldEMemHl
      ∧ decode 0b01011111#8 = .ok .ldEA := by decide

/-- x=1, y=4. -/
theorem test_decode_x1_h :
    decode 0b01100000#8 = .ok .ldHB
      ∧ decode 0b01100001#8 = .ok .ldHC
      ∧ decode 0b01100010#8 = .ok .ldHD
      ∧ decode 0b01100011#8 = .ok .ldHE
      ∧ decode 0b01100100#8 = .ok .ldHH
      ∧ decode 0b01100101#8 = .ok .ldHL
      ∧ decode 0b01100110#8 = .ok .ldHMemHl
      ∧ decode 0b01100111#8 = .ok .ldHA := by decide

/-- x=1, y=5. -/
theorem test_decode_x1_l :
    decode 0b01101000#8 = .ok .ldLB
      ∧ decode 0b01101001#8 = .ok .ldLC
      ∧ decode 0b01101010#8 = .ok .ldLD
      ∧ decode 0b01101011#8 = .ok .ldLE
      ∧ decode 0b01101100#8 = .ok .ldLH
      ∧ decode 0b01101101#8 = .ok .ldLL
      ∧ decode 0b01101110#8 = .ok .ldLMemHl
      ∧ decode 0b01101111#8 = .ok .ldLA := by decide

/-- x=1, y=6. -/
theorem test_decode_x1_hl :
    decode 0b01110000#8 = .ok .ldMemHlB
      ∧ decode 0b01110001#8 = .ok .ldMemHlC
      ∧ decode 0b01110010#8 = .ok .ldMemHlD
      ∧ decode 0b01110011#8 = .ok .ldMemHlE
      ∧ decode 0b01110100#8 = .ok .ldMemHlH
      ∧ decode 0b01110101#8 = .ok .ldMemHlL
      ∧ decode 0b01110110#8 = .ok .halt
      ∧ decode 0b01110111#8 = .ok .ldMemHlA := by decide

/-- x=1, y=7. -/
theorem test_decode_x1_a :
    decode 0b01111000#8 = .ok .ldAB
      ∧ decode 0b01111001#8 = .ok .ldAC
      ∧ decode 0b01111010#8 = .ok .ldAD
      ∧ decode 0b01111011#8 = .ok .ldAE
      ∧ decode 0b01111100#8 = .ok .ldAH
      ∧ decode 0b01111101#8 = .ok .ldAL
      ∧ decode 0b01111110#8 = .ok .ldAMemHl
      ∧ decode 0b01111111#8 = .ok .ldAA := by decide

/-- Table 2.1 of 95_test_vectors.md: unmatched opcodes with their fields. -/
theorem test_decode_unmatched :
    decode 0x01#8 = .error (.unmatched 0x01#8 0#2 0#3 1#3 0#2 0#1)
      ∧ decode 0x08#8 = .error (.unmatched 0x08#8 0#2 1#3 0#3 0#2 1#1)
      ∧ decode 0x10#8 = .error (.unmatched 0x10#8 0#2 2#3 0#3 1#2 0#1)
      ∧ decode 0x3F#8 = .error (.unmatched 0x3F#8 0#2 7#3 7#3 3#2 1#1)
      ∧ decode 0x80#8 = .error (.unmatched 0x80#8 2#2 0#3 0#3 0#2 0#1)
      ∧ decode 0xAF#8 = .error (.unmatched 0xAF#8 2#2 5#3 7#3 2#2 1#1)
      ∧ decode 0xCB#8 = .error (.unmatched 0xCB#8 3#2 1#3 3#3 0#2 1#1)
      ∧ decode 0xFF#8 = .error (.unmatched 0xFF#8 3#2 7#3 7#3 3#2 1#1) := by decide

/-- Table 2.1: what some opcodes decode to. -/
theorem test_decode_kinds :
    decodeKind 0x22#8 = .ok (.load (.reg8 .a) (.reg16 .hl) (some .increment16))
      ∧ decodeKind 0x36#8 = .ok (.load .immediate8 (.reg16 .hl) none)
      ∧ decodeKind 0x70#8 = .ok (.load (.reg8 .b) (.reg16 .hl) none)
      ∧ decodeKind 0x7E#8 = .ok (.load (.reg16 .hl) (.reg8 .a) none)
      ∧ decodeKind 0x76#8 = .ok .halt ∧ decodeKind 0x64#8 = .ok .noOp := by decide

/-- The host's reading of a table word: the opcode is bits 7..0, the immediate is no part of it. -/
theorem test_decodeTableWord :
    decodeTableWord 8 0x41 = some .ldBC ∧ decodeTableWord 16 0x6906 = some .ldBN
      ∧ decodeTableWord 8 0xD3 = none := by decide

/-! ### Registers and memory (tables 2.2, 2.3) -/

/-- S2 and table 2.2: pair views. -/
theorem test_pair_views :
    (State.reset.setReg16 .hl 0xA445#16).h = 0xA4#8 ∧ (State.reset.setReg16 .hl 0xA445#16).l = 0x45#8
      ∧ (State.reset.setReg16 .af 0xA445#16).f = 0x45#8
      ∧ ((State.reset.setReg8 .a 0x12#8).setReg8 .f 0x34#8).getReg16 .af = 0x1234#16 := by decide

/-- Table 2.2: wrapping. -/
theorem test_inc_dec_wrap :
    ((State.reset.setReg8 .b 0xFF#8).incReg8 .b).b = 0x00#8
      ∧ (State.reset.decReg8 .c).c = 0xFF#8
      ∧ ((State.reset.setReg16 .bc 0x00FF#16).incReg16 .bc).getReg16 .bc = 0x0100#16
      ∧ ((State.reset.setReg16 .hl 0x0100#16).decReg16 .hl).getReg16 .hl = 0x00FF#16
      ∧ (State.reset.decReg16 .sp).sp = 0xFFFF#16 := by decide

/-- Table 2.3: the last byte is in range, two bytes there are not, and no byte is written. -/
theorem test_mem_bounds :
    memWrite 0xFFFF#16 [0x11#8] State.reset = .ok () (State.reset.setMem [(0xFFFF, 0x11#8)])
      ∧ memWrite 0xFFFF#16 [0x11#8, 0x22#8] State.reset
          = .fail (.memoryOverflow 0xFFFF#16 2) State.reset
      ∧ memRead 0xFFFF#16 2 State.reset = .fail (.memoryOverflow 0xFFFF#16 2) State.reset := by decide

/-- Writing the value an unlisted address reads as removes the entry; entries stay in order. -/
theorem test_memory_canonical :
    Memory.write [(1, 0x11#8), (3, 0x33#8)] 3 0x00#8 = [(1, 0x11#8)]
      ∧ Memory.write [(1, 0x11#8), (3, 0x33#8)] 2 0x22#8 = [(1, 0x11#8), (2, 0x22#8), (3, 0x33#8)]
      ∧ Memory.wf [(1, 0x11#8), (3, 0x33#8)] ∧ ¬ Memory.wf [(1, 0x00#8)]
      ∧ ¬ Memory.wf [(3, 0x33#8), (1, 0x11#8)] ∧ ¬ Memory.wf [(65536, 0x01#8)] := by decide

/-! ### One step of each form (tables 2.4, 2.5, 2.6), on the construction state with a few values -/

/-- The construction state with `PC` and the listed bytes seeded, and one 16-bit register written. -/
def seeded (pc : Word) (m : Memory) (rr : Reg16) (v : Word) : State :=
  ({ State.reset with pc := pc, mem := m } : State).setReg16 rr v

/-- A reading of the state a step leaves. -/
def after {α : Type} (s : State) (g : State → α) : Option α := (nextOf (step s)).map g

/-- Table 2.4, `02`. -/
theorem test_ld_mem_bc_a :
    after ((seeded 0x0100#16 [(0x0100, 0x02#8)] .bc 0xC000#16).setReg8 .a 0x5A#8) (fun t => (t.byteAt 0xC000#16, t.pc)) = some (0x5A#8, 0x0101#16) := by decide

/-- Table 2.4, `0A`. -/
theorem test_ld_a_mem_bc :
    after (seeded 0x0100#16 [(0x0100, 0x0A#8), (0x1234, 0x99#8)] .bc 0x1234#16) (fun t => (t.a, t.pc)) = some (0x99#8, 0x0101#16) := by decide

/-- Table 2.4, `12`. -/
theorem test_ld_mem_de_a :
    after ((seeded 0x0100#16 [(0x0100, 0x12#8)] .de 0xFFFF#16).setReg8 .a 0x01#8) (fun t => (t.byteAt 0xFFFF#16, t.getReg16 .de)) = some (0x01#8, 0xFFFF#16) := by decide

/-- Table 2.4, `1A`. -/
theorem test_ld_a_mem_de :
    after (seeded 0x0100#16 [(0x0000, 0x3E#8), (0x0100, 0x1A#8)] .de 0x0000#16) (fun t => (t.a, t.f)) = some (0x3E#8, 0x00#8) := by decide

/-- Table 2.4, `22`: the store precedes the wrap of `HL`. -/
theorem test_ld_mem_hl_inc_a :
    after ((seeded 0x0100#16 [(0x0100, 0x22#8)] .hl 0xFFFF#16).setReg8 .a 0x77#8) (fun t => (t.byteAt 0xFFFF#16, t.getReg16 .hl)) = some (0x77#8, 0x0000#16) := by decide

/-- Table 2.4, `2A`. -/
theorem test_ld_a_mem_hl_inc :
    after (seeded 0x0100#16 [(0x00FF, 0x42#8), (0x0100, 0x2A#8)] .hl 0x00FF#16) (fun t => (t.a, t.h, t.l)) = some (0x42#8, 0x01#8, 0x00#8) := by decide

/-- Table 2.4, `32`. -/
theorem test_ld_mem_hl_dec_a :
    after ((seeded 0x0100#16 [(0x0100, 0x32#8)] .hl 0x0000#16).setReg8 .a 0x10#8) (fun t => (t.byteAt 0x0000#16, t.getReg16 .hl)) = some (0x10#8, 0xFFFF#16) := by decide

/-- Table 2.4, `3A`. -/
theorem test_ld_a_mem_hl_dec :
    after (seeded 0x0100#16 [(0x0100, 0x3A#8), (0x1000, 0xAB#8)] .hl 0x1000#16) (fun t => (t.a, t.getReg16 .hl)) = some (0xAB#8, 0x0FFF#16) := by decide

/-- Table 2.4, `48`. -/
theorem test_ld_c_b :
    after (seeded 0x0100#16 [(0x0100, 0x48#8)] .bc 0x1200#16) (fun t => (t.c, t.b)) = some (0x12#8, 0x12#8) := by decide

/-- Table 2.4, `7C`. -/
theorem test_ld_a_h :
    after (seeded 0x0100#16 [(0x0100, 0x7C#8)] .hl 0x8000#16) (fun t => (t.a, t.pc)) = some (0x80#8, 0x0101#16) := by decide

/-- Table 2.4, `49`: nothing but `PC`. -/
theorem test_ld_c_c :
    after (seeded 0x0100#16 [(0x0100, 0x49#8)] .bc 0x0055#16) (fun t => (t.getReg16 .bc, t.pc)) = some (0x0055#16, 0x0101#16) := by decide

/-- Table 2.4, `66`: read through the old `HL`. -/
theorem test_ld_h_mem_hl :
    after (seeded 0x0100#16 [(0x0100, 0x66#8), (0x1234, 0x56#8)] .hl 0x1234#16) (fun t => t.getReg16 .hl) = some 0x5634#16 := by decide

/-- Table 2.4, `6E`. -/
theorem test_ld_l_mem_hl :
    after (seeded 0x0100#16 [(0x0100, 0x6E#8), (0x1234, 0x56#8)] .hl 0x1234#16) (fun t => t.getReg16 .hl) = some 0x1256#16 := by decide

/-- Table 2.4, `74`. -/
theorem test_ld_mem_hl_h :
    after (seeded 0x0100#16 [(0x0100, 0x74#8)] .hl 0x8001#16) (fun t => t.byteAt 0x8001#16) = some 0x80#8 := by decide

/-- Table 2.4, `75`. -/
theorem test_ld_mem_hl_l :
    after (seeded 0x0100#16 [(0x0100, 0x75#8)] .hl 0x8001#16) (fun t => t.byteAt 0x8001#16) = some 0x01#8 := by decide

/-- Table 2.4 and S8, `06 69`. -/
theorem test_ld_b_n :
    after (seeded 0x0100#16 [(0x0100, 0x06#8), (0x0101, 0x69#8)] .sp 0x0000#16) (fun t => (t.b, t.pc)) = some (0x69#8, 0x0102#16) := by decide

/-- Table 2.4, `3E 5A` at 0xFFFF: the immediate is at 0x0000. -/
theorem test_ld_a_n_wraps :
    after (seeded 0xFFFF#16 [(0x0000, 0x5A#8), (0xFFFF, 0x3E#8)] .sp 0x0000#16) (fun t => (t.a, t.pc)) = some (0x5A#8, 0x0001#16) := by decide

/-- Table 2.4, `2E 00` at 0xFFFE. -/
theorem test_ld_l_n_end :
    after (seeded 0xFFFE#16 [(0xFFFE, 0x2E#8)] .hl 0x0099#16) (fun t => (t.l, t.pc)) = some (0x00#8, 0x0000#16) := by decide

/-- Table 2.4, `36 AA`. -/
theorem test_ld_mem_hl_n :
    after (seeded 0x0100#16 [(0x0100, 0x36#8), (0x0101, 0xAA#8)] .hl 0x9000#16) (fun t => (t.byteAt 0x9000#16, t.pc)) = some (0xAA#8, 0x0102#16) := by decide

/-- Table 2.5, `03`. -/
theorem test_inc_bc :
    after (seeded 0x0100#16 [(0x0100, 0x03#8)] .bc 0xFFFF#16) (fun t => (t.getReg16 .bc, t.f)) = some (0x0000#16, 0x00#8) := by decide

/-- Table 2.5, `0B`. -/
theorem test_dec_bc :
    after (seeded 0x0100#16 [(0x0100, 0x0B#8)] .bc 0x0100#16) (fun t => (t.getReg16 .bc, t.f)) = some (0x00FF#16, 0x00#8) := by decide

/-- Table 2.5, `13`. -/
theorem test_inc_de :
    after (seeded 0x0100#16 [(0x0100, 0x13#8)] .de 0x12FF#16) (fun t => (t.getReg16 .de, t.f)) = some (0x1300#16, 0x00#8) := by decide

/-- Table 2.5, `1B`. -/
theorem test_dec_de :
    after (seeded 0x0100#16 [(0x0100, 0x1B#8)] .de 0x0000#16) (fun t => (t.getReg16 .de, t.f)) = some (0xFFFF#16, 0x00#8) := by decide

/-- Table 2.5, `2B`. -/
theorem test_dec_hl :
    after (seeded 0x0100#16 [(0x0100, 0x2B#8)] .hl 0x0000#16) (fun t => (t.getReg16 .hl, t.f)) = some (0xFFFF#16, 0x00#8) := by decide

/-- Table 2.5, `33`. -/
theorem test_inc_sp :
    after (seeded 0x0100#16 [(0x0100, 0x33#8)] .sp 0xFFFF#16) (fun t => (t.getReg16 .sp, t.f)) = some (0x0000#16, 0x00#8) := by decide

/-- Table 2.5, `3B`. -/
theorem test_dec_sp :
    after (seeded 0x0100#16 [(0x0100, 0x3B#8)] .sp 0x0000#16) (fun t => (t.getReg16 .sp, t.f)) = some (0xFFFF#16, 0x00#8) := by decide

/-- Table 2.5, `23`: memory at `HL` is untouched. -/
theorem test_inc_hl :
    after (seeded 0x0100#16 [(0x0100, 0x23#8), (0x10FF, 0x33#8)] .hl 0x10FF#16) (fun t => (t.getReg16 .hl, t.byteAt 0x10FF#16)) = some (0x1100#16, 0x33#8) := by decide

/-- Table 2.6. -/
theorem test_nop :
    after (seeded 0x0100#16 [] .sp 0x0000#16) (fun t => (t.pc, t.run)) = some (0x0101#16, .running) := by decide

/-- Table 2.6. -/
theorem test_halt :
    after (seeded 0x0003#16 [(0x0003, 0x76#8)] .sp 0x0000#16) (fun t => (t.pc, t.run)) = some (0x0004#16, .halted) := by decide

/-- Table 2.6, `D3` at 0xFFFF: the failure, with `PC` wrapped. -/
theorem test_unmatched_step :
    after (seeded 0xFFFF#16 [(0xFFFF, 0xD3#8)] .sp 0x0000#16) (fun t => (t.pc, t.run)) = some (0x0000#16, .faulted (.unmatched 0xD3#8 3#2 2#3 3#3 1#2 0#1)) := by decide

/-- Table 2.6: no step in `Halted`. -/
theorem test_no_step_when_halted : nextOf (step (State.reset.setRun .halted)) = none := by decide

/-- R200's codes, and what the host is returned (R104, R208). -/
theorem test_failure_returned :
    failureCode (numericUnmatched 0xC3#8) = 1 ∧ failureCode (.fetchError .immediate16 .byte) = 3
      ∧ after (seeded 0x0010#16 [(0x0010, 0xC3#8)] .sp 0x0000#16) returned
          = some (some (.unmatched 0xC3#8 3#2 0#3 3#3 0#2 0#1))
      ∧ after (seeded 0x0010#16 [(0x0010, 0x76#8)] .sp 0x0000#16) returned = some none := by decide

/-- The host's placement of a table word runs it as the next instruction. -/
theorem test_withFetchWord :
    after (State.reset.withFetchWord 16 0x6906) (fun t => (t.b, t.pc)) = some (0x69#8, 0x0002#16) := by
  decide

/-! ### The executor on hand-built instructions (table 2.7) -/

/-- `FetchError(Immediate16, Byte)` and `UnsupportedInstruction(Load)`, with nothing fetched. -/
theorem test_hand_built_loads :
    execute (.load .immediate16 (.reg8 .a) none) State.reset
        = .fail (.fetchError .immediate16 .byte) State.reset
      ∧ execute (.load (.reg8 .a) .immediate8 none) State.reset
        = .fail (.unsupported .load) State.reset := by decide

/-- A followup with no address register fails after the write. -/
theorem test_hand_built_followup :
    execute (.load (.reg8 .a) (.reg8 .b) (some .increment16)) (State.reset.setReg8 .a 0x01#8)
      = .fail (.unsupported .load) ((State.reset.setReg8 .a 0x01#8).setReg8 .b 0x01#8) := by decide

/-- `Increment(Reg8(B))` wraps; `Increment(Immediate8)` and `Arithmetic` fail. -/
theorem test_hand_built_others :
    execute (.increment (.reg8 .b)) (State.reset.setReg8 .b 0xFF#8) = .ok () State.reset
      ∧ execute (.increment .immediate8) State.reset = .fail (.unsupported .increment) State.reset
      ∧ execute .arithmetic State.reset = .fail (.unsupported .arithmetic) State.reset := by decide

/-- `ResolveWord(Immediate16)` at `PC = 0xFFFF`: the high byte comes from 0x0000. -/
theorem test_resolve_word_wraps :
    resolveWord .immediate16 (seeded 0xFFFF#16 [(0x0000, 0xAB#8), (0xFFFF, 0xCD#8)] .sp 0x0000#16)
      = .ok 0xABCD#16 (seeded 0x0001#16 [(0x0000, 0xAB#8), (0xFFFF, 0xCD#8)] .sp 0x0000#16) := by
  decide

/-! ### Witnesses: states and operands that meet the hypotheses of the statements -/

/-- A state about to run the opcode `op`, with `HL` as given. -/
def aboutToRun (op : Byte) (hl : Word) : State := seeded 0x0100#16 [(0x0100, op)] .hl hl

/-- `ReadReturnsBytesInOrder`, `WriteIsAllOrNothing`, `MemoryRoundTrip`: both ranges at their
boundary (65,536 and 65,537), and an address on either side of the written bytes. -/
theorem witness_ranges :
    (0xFFFF#16).toNat + 1 ≤ 65536 ∧ (0xFFFF#16).toNat + [0x11#8, 0x22#8].length > 65536
      ∧ (0xFFFE#16).toNat + [0x11#8, 0x22#8].length ≤ 65536
      ∧ (0x00FF#16).toNat < (0x0100#16).toNat
      ∧ (0x0100#16).toNat + [0x11#8].length ≤ (0x0101#16).toNat := by decide

/-- `OpcodeMapComplete`: a byte of the map and one outside it. -/
theorem witness_opcode_map :
    0x7F#8 ∈ opcodeMap.map OpcodeRow.op ∧ 0x01#8 ∉ opcodeMap.map OpcodeRow.op := by decide

/-- `UnmatchedBytesByField`: a matched byte, an unmatched byte of each clause of R83, and a failure. -/
theorem witness_unmatched_bytes :
    ¬ IsUnmatched 0x7F#8 ∧ IsUnmatched 0x01#8 ∧ IsUnmatched 0x08#8 ∧ IsUnmatched 0x3F#8
      ∧ IsUnmatched 0x80#8 ∧ IsUnmatched 0xFF#8
      ∧ decode 0x80#8 = .error (numericUnmatched 0x80#8) := by decide

/-- `DecoderCaseAnalysis`: bytes outside every case, beside the last clause's boundaries. -/
theorem witness_case_analysis :
    ([0x01#8, 0x3F#8, 0x80#8, 0xFF#8] : List Byte).all (fun op =>
      decide (op ≠ 0x00#8) && decide (op.toNat / 64 ≠ 1)
        && decide (¬ (op.toNat / 64 = 0
          ∧ (op.toNat % 8 = 2 ∨ op.toNat % 8 = 3 ∨ op.toNat % 8 = 6)))) = true := by decide

/-- `DecodedCarriesKindAndCycles`, `DecodedKindsNeverFail`: a decoded row and a well-formed kind. -/
theorem witness_decoded :
    decode 0x36#8 = .ok .ldMemHlN ∧ decodeKind 0x36#8 = .ok (.load .immediate8 (.reg16 .hl) none)
      ∧ (Kind.load .immediate8 (.reg16 .hl) none).wellFormed = true := by decide

/-- `StepRunsDecodedInstruction`: a running state whose byte decodes, and one whose byte does not. -/
theorem witness_step_runs :
    (aboutToRun 0x73#8 0x4000#16).run = .running
      ∧ decode ((aboutToRun 0x73#8 0x4000#16).byteAt (aboutToRun 0x73#8 0x4000#16).pc) = .ok .ldMemHlE
      ∧ decode ((aboutToRun 0xC3#8 0x4000#16).byteAt (aboutToRun 0xC3#8 0x4000#16).pc)
          = .error (numericUnmatched 0xC3#8) := by decide

/-- `EncodedBytesRun`: the two bytes of `LD B,0x69`, at the very end of memory. -/
theorem witness_encoded_bytes :
    (seeded 0xFFFF#16 [(0x0000, 0x69#8), (0xFFFF, 0x06#8)] .sp 0x0000#16).run = .running
      ∧ encode .ldBN 0x69#8 = [0x06#8, 0x69#8] ∧ Instr.ldBN.length = 2
      ∧ (seeded 0xFFFF#16 [(0x0000, 0x69#8), (0xFFFF, 0x06#8)] .sp 0x0000#16).byteAt
          (0xFFFF#16 + BitVec.ofNat 16 0) = 0x06#8
      ∧ (seeded 0xFFFF#16 [(0x0000, 0x69#8), (0xFFFF, 0x06#8)] .sp 0x0000#16).byteAt
          (0xFFFF#16 + BitVec.ofNat 16 1) = 0x69#8 := by decide

/-- `EncodedBytesRun`: its hypothesis on every byte of the encoding, met. -/
theorem witness_encoded_bytes_hypothesis :
    ∀ k v, (encode .ldBN 0x69#8)[k]? = some v →
      (seeded 0xFFFF#16 [(0x0000, 0x69#8), (0xFFFF, 0x06#8)] .sp 0x0000#16).byteAt
        ((seeded 0xFFFF#16 [(0x0000, 0x69#8), (0xFFFF, 0x06#8)] .sp 0x0000#16).pc
          + BitVec.ofNat 16 k) = v := by
  intro k v h
  match k, h with
  | 0, h => exact Option.some.inj h
  | 1, h => exact Option.some.inj h

/-- `UnmatchedOpcodeFaults`, `RunStateToldByOpcode`: a running state at an unmatched byte. -/
theorem witness_unmatched_step :
    (aboutToRun 0xC3#8 0x0000#16).run = .running
      ∧ IsUnmatched ((aboutToRun 0xC3#8 0x0000#16).byteAt (aboutToRun 0xC3#8 0x0000#16).pc) := by decide

/-- `StepExistsOnlyWhenRunning`: each run state. -/
theorem witness_run_states :
    State.reset.run = .running ∧ (State.reset.setRun .halted).run = .halted
      ∧ (State.reset.setRun (.faulted (numericUnmatched 0xC3#8))).run
          = .faulted (numericUnmatched 0xC3#8) := by decide

/-- `StepKeepsCanonicalMemory` and the statements on `step s = next t`: a canonical state with a next
state, storing. -/
theorem witness_step_next :
    (aboutToRun 0x74#8 0x8001#16).mem.wf
      ∧ (nextOf (step (aboutToRun 0x74#8 0x8001#16))).isSome = true
      ∧ storePair ((aboutToRun 0x74#8 0x8001#16).byteAt (aboutToRun 0x74#8 0x8001#16).pc) = some .hl
      ∧ (aboutToRun 0x74#8 0x8001#16).getReg16 .hl ≠ 0x8002#16
      ∧ (aboutToRun 0x74#8 0x8001#16).byteAt 0x0100#16 ∉ writers .h
      ∧ (aboutToRun 0x74#8 0x8001#16).byteAt 0x0100#16 ≠ 0x33#8
      ∧ (aboutToRun 0x74#8 0x8001#16).byteAt 0x0100#16 ≠ 0x3B#8 := by decide

/-- `DecodedKindsNeverFail`: a reachable run state. -/
theorem witness_reachable_run : ReachableRun State.reset.run := .inl rfl

/-- `NextFetchSeesStore`: `LD (HL),E` with `HL` the address of the next instruction (a row of
`toHlRows`). -/
theorem witness_next_fetch :
    (aboutToRun 0x73#8 0x0101#16).run = .running
      ∧ storePair ((aboutToRun 0x73#8 0x0101#16).byteAt (aboutToRun 0x73#8 0x0101#16).pc) = some .hl
      ∧ (aboutToRun 0x73#8 0x0101#16).byteAt (aboutToRun 0x73#8 0x0101#16).pc ∉ twoByteOpcodes
      ∧ (aboutToRun 0x73#8 0x0101#16).getReg16 .hl = (aboutToRun 0x73#8 0x0101#16).pc + 1#16 := by
  decide

/-- `NextFetchSeesStore`: `LD (HL+),A` and `LD (HL-),A` with `HL`, and `LD (BC),A` and `LD (DE),A` with
their pair, the address of the next instruction. -/
theorem witness_next_fetch_a :
    ∀ x ∈ [(0x02#8, Reg16.bc), (0x12#8, .de), (0x22#8, .hl), (0x32#8, .hl)],
      ((aboutToRun x.1 0x0000#16).setReg16 x.2 0x0101#16).run = .running
        ∧ ((aboutToRun x.1 0x0000#16).setReg16 x.2 0x0101#16).pc = 0x0100#16
        ∧ ((aboutToRun x.1 0x0000#16).setReg16 x.2 0x0101#16).byteAt 0x0100#16 = x.1
        ∧ storePair x.1 = some x.2 ∧ x.1 ∉ twoByteOpcodes
        ∧ ((aboutToRun x.1 0x0000#16).setReg16 x.2 0x0101#16).getReg16 x.2 = 0x0100#16 + 1#16 := by
  decide

/-- `NextFetchSeesStore`: `LD (HL),n` with `HL` the address of the next instruction, two past the
opcode. -/
theorem witness_next_fetch_immediate :
    (aboutToRun 0x36#8 0x0102#16).run = .running
      ∧ (aboutToRun 0x36#8 0x0102#16).byteAt (aboutToRun 0x36#8 0x0102#16).pc = 0x36#8
      ∧ (aboutToRun 0x36#8 0x0102#16).getReg16 .hl = (aboutToRun 0x36#8 0x0102#16).pc + 2#16 := by
  decide

/-- `ImmediateReadBeforeStore`. -/
theorem witness_immediate_before_store :
    (aboutToRun 0x36#8 0x0101#16).run = .running
      ∧ (aboutToRun 0x36#8 0x0101#16).byteAt (aboutToRun 0x36#8 0x0101#16).pc = 0x36#8
      ∧ (aboutToRun 0x36#8 0x0101#16).getReg16 .hl = (aboutToRun 0x36#8 0x0101#16).pc + 1#16 := by
  decide

/-- The statements over the rows of a family: each family has its rows. -/
theorem witness_rows :
    moveRows.length = 42 ∧ selfRows.length = 7 ∧ fromHlRows.length = 7 ∧ toHlRows.length = 7
      ∧ immediateRows.length = 7 ∧ storePairRows.length = 2 ∧ loadPairRows.length = 2
      ∧ incRows.length = 4 ∧ decRows.length = 4 := by decide

/-- `LoadRegisterFromItself`, `NopDoesNothing`, `HaltStopsTheCore`: running states at those opcodes. -/
theorem witness_plain_opcodes :
    (aboutToRun 0x40#8 0x0000#16).run = .running
      ∧ (aboutToRun 0x40#8 0x0000#16).byteAt (aboutToRun 0x40#8 0x0000#16).pc = 0x40#8
      ∧ State.reset.byteAt State.reset.pc = 0x00#8
      ∧ (aboutToRun 0x76#8 0x0000#16).byteAt (aboutToRun 0x76#8 0x0000#16).pc = 0x76#8 := by decide

/-- `NonStoringFormsFrame` and `StoringFormsFrame`: a form of each clause has a next state. -/
theorem witness_frames :
    ([Instr.ldBC, .ldBB, .ldBMemHl, .ldBN, .ldAMemBc, .ldAMemHlInc, .incBc, .decSp, .nop, .halt,
      .ldMemHlB, .ldMemBcA, .ldMemHlIncA, .ldMemHlN].all
        fun i => (nextOf (exec i State.reset)).isSome) = true := by decide

/-- `LoadChecksDestinationFirst` and `FollowupTarget`: a source that resolves, and loads that complete
before their followup, for each clause. -/
theorem witness_loads :
    resolveByte (.reg8 .a) State.reset = .ok 0x00#8 State.reset
      ∧ applyLoad (.reg8 .a) (.reg16 .hl) none State.reset = .ok () State.reset
      ∧ applyLoad (.reg16 .hl) (.reg8 .a) none State.reset = .ok () State.reset
      ∧ applyLoad (.reg8 .b) (.reg8 .a) none State.reset = .ok () State.reset := by decide

/-- `RunEndsHaltedOrUnmatched`: from this running state `run()` returns. -/
theorem witness_run_returns :
    (aboutToRun 0x76#8 0x0000#16).run = .running
      ∧ Returns (aboutToRun 0x76#8 0x0000#16) (runFor 1 (aboutToRun 0x76#8 0x0000#16)) :=
  ⟨rfl, 1, rfl, by decide⟩

end Sys2Proof.Tests
end

section
/-! PROOFS. Statements about the register file and about which registers a step reads and writes
(10_state.md). The state's own rules come first, then two rules for the whole executor, each said once:
an update of the state that an instruction does not see commutes with its step, and a predicate on
states that an instruction's writes keep is kept by its step. -/

namespace Sys2Proof

/-! ### What an instruction names and what it writes -/

/-- The 8-bit registers an operand names, alone or as halves of a pair. -/
def Operand.regs : Operand → List Reg8
  | .reg8 r => [r]
  | .reg16 rr => halves rr
  | .immediate8 => []
  | .immediate16 => []

/-- The registers and immediates an instruction kind names. -/
def Kind.operands : Kind → List Operand
  | .load src dest _ => [src, dest]
  | .increment o => [o]
  | .decrement o => [o]
  | .noOp => []
  | .halt => []
  | .arithmetic => []

/-- The register a followup of the load steps, if it has one: the destination's `Reg16`, else the
source's (R109, D5). -/
def followupTarget (src : Operand) : Operand → Operand
  | .reg16 rr => .reg16 rr
  | _ => src

/-- The register the write of a load goes to: a `Reg16` destination is an address (R28, R108). -/
def Operand.moveTarget : Operand → List Operand
  | .reg8 r => [.reg8 r]
  | _ => []

/-- The registers an instruction kind may write, the advance of `PC` aside. -/
def Kind.written : Kind → List Operand
  | .load _ dest none => dest.moveTarget
  | .load src dest (some _) => followupTarget src dest :: dest.moveTarget
  | .increment o => [o]
  | .decrement o => [o]
  | .noOp => []
  | .halt => []
  | .arithmetic => []

/-- How far the write of a load advances `PC`: one for an immediate byte, none when the destination
is refused before the source is resolved (R31, R106, R108). -/
def loadFetches : Operand → Operand → Word
  | .immediate8, .reg8 _ => 1#16
  | .immediate8, .reg16 _ => 1#16
  | _, _ => 0#16

/-- How far an instruction kind advances `PC` as it executes. -/
def Kind.fetches : Kind → Word
  | .load src dest _ => loadFetches src dest
  | _ => 0#16

/-! ### Facts of the opcode table -/

/-- The decoder answers a row only for that row's own opcode. -/
theorem opcode_of_decode : ∀ op : Byte, ∀ i ∈ (decode op).toOption, i.opcode = op := by
  decide

theorem opcode_of_decode_eq {op : Byte} {i : Instr} (h : decode op = .ok i) : i.opcode = op :=
  opcode_of_decode op i (by simp [h, Except.toOption])

theorem decode_twoByteOpcodes_isOk : ∀ op ∈ twoByteOpcodes, (decode op).isOk := by decide

theorem fetches_of_instr (i : Instr) :
    i.kind.fetches = if i.opcode ∈ twoByteOpcodes then 1#16 else 0#16 := by
  cases i <;> rfl

theorem pc_notMem_written (i : Instr) : .reg16 .pc ∉ i.kind.written := by
  cases i <;> decide

theorem opcode_mem_writers (i : Instr) :
    ∀ o ∈ i.kind.written, ∀ r ∈ o.regs, i.opcode ∈ writers r := by
  cases i <;> decide

theorem f_notMem_operands (i : Instr) : ∀ o ∈ i.kind.operands, Reg8.f ∉ o.regs := by
  cases i <;> decide

theorem operands_ne_sp (i : Instr) :
    i.opcode ≠ 0x33#8 → i.opcode ≠ 0x3B#8 → ∀ o ∈ i.kind.operands, o ≠ .reg16 .sp := by
  cases i <;> decide

end Sys2Proof

namespace Sys2Proof.Machine

/-! ### Reading registers after a register write -/

@[simp] theorem getReg8_setReg8_same (s : State) (r : Reg8) (v : Byte) :
    (s.setReg8 r v).getReg8 r = v := by cases r <;> rfl

theorem getReg8_setReg8_other (s : State) {r q : Reg8} (v : Byte) (h : q ≠ r) :
    (s.setReg8 r v).getReg8 q = s.getReg8 q := by
  cases q <;> simp [State.getReg8, h.symm]

@[simp] theorem getReg16_setReg16_same (s : State) (rr : Reg16) (v : Word) :
    (s.setReg16 rr v).getReg16 rr = v := by
  cases rr <;> simp [State.getReg16]

/-- A pair write is the write of its two halves, so every other 8-bit register stays (R24, R25). -/
theorem getReg8_setReg16_of_notMem (s : State) {rr : Reg16} {r : Reg8} (v : Word)
    (h : r ∉ halves rr) : (s.setReg16 rr v).getReg8 r = s.getReg8 r := by
  cases rr
  case sp => exact getReg8_setReg16_sp s v r
  case pc => exact getReg8_setReg16_pc s v r
  all_goals
    obtain ⟨hhi, hlo⟩ : r ≠ _ ∧ r ≠ _ := by simpa [halves] using h
    exact (getReg8_setReg8_other _ (loByte v) hlo).trans
      (getReg8_setReg8_other s (hiByte v) hhi)

theorem sameRegsExcept_setReg8 (s : State) (r : Reg8) (v : Byte) :
    SameRegsExcept [r] s (s.setReg8 r v) :=
  fun _ hq => getReg8_setReg8_other s v (List.ne_of_not_mem_cons hq)

theorem sameRegsExcept_setReg16 (s : State) (rr : Reg16) (v : Word) :
    SameRegsExcept (halves rr) s (s.setReg16 rr v) :=
  fun _ hr => getReg8_setReg16_of_notMem s v hr

/-! ### Updates that an instruction does not see -/

/-- The result with its state changed by `u`. -/
def Res.mapState {α : Type} (u : State → State) : Res α → Res α
  | .ok v s => .ok v (u s)
  | .fail e s => .fail e (u s)

@[simp] theorem mapState_ok {α : Type} (u : State → State) (v : α) (s : State) :
    (Res.ok v s).mapState u = .ok v (u s) := rfl

@[simp] theorem mapState_fail {α : Type} (u : State → State) (e : Failure) (s : State) :
    (Res.fail e s : Res α).mapState u = .fail e (u s) := rfl

theorem andThen_mapState {α β : Type} {u : State → State} (r : Res α) {k : α → State → Res β}
    (hk : ∀ v s, k v (u s) = (k v s).mapState u) :
    andThen (r.mapState u) k = (andThen r k).mapState u := by
  cases r with
  | ok v s => exact hk v s
  | fail e s => rfl

/-- The update `u` leaves the register that `o` names as it is and commutes with writing it. -/
def CommutesAt (u : State → State) : Operand → Prop
  | .reg8 r => ∀ s, (u s).getReg8 r = s.getReg8 r ∧ ∀ v, (u s).setReg8 r v = u (s.setReg8 r v)
  | .reg16 rr =>
      ∀ s, (u s).getReg16 rr = s.getReg16 rr ∧ ∀ v, (u s).setReg16 rr v = u (s.setReg16 rr v)
  | .immediate8 => True
  | .immediate16 => True

/-- The update `u` is independent of what every step uses: `PC`, memory and the run state. -/
structure HiddenUpdate (u : State → State) : Prop where
  getPc : ∀ s, (u s).pc = s.pc
  setPc : ∀ s v, (u s).setReg16 .pc v = u (s.setReg16 .pc v)
  mem : ∀ s, (u s).mem = s.mem
  setMem : ∀ s m, (u s).setMem m = u (s.setMem m)
  run : ∀ s, (u s).run = s.run
  setRun : ∀ s r, (u s).setRun r = u (s.setRun r)

section
variable {u : State → State}

theorem applyFollowup_update {src dest : Operand} (hsrc : CommutesAt u src)
    (hdest : CommutesAt u dest) (fu : Followup) (s : State) :
    applyFollowup src dest fu (u s) = (applyFollowup src dest fu s).mapState u := by
  have hreg {rr} (h : CommutesAt u (.reg16 rr)) :
      followupReg16 fu rr (u s) = u (followupReg16 fu rr s) := by
    cases fu <;> simp [followupReg16, (h s).1, (h s).2]
  cases dest with
  | reg16 rr => simp [hreg hdest]
  | _ =>
    cases src with
    | reg16 rr => simp [applyFollowup, hreg hsrc]
    | _ => rfl

theorem applyIncrement_update {o : Operand} (ho : CommutesAt u o) (s : State) :
    applyIncrement o (u s) = (applyIncrement o s).mapState u := by
  cases o with
  | reg8 r => simp [applyIncrement, (ho s).1, (ho s).2]
  | reg16 rr => simp [applyIncrement, (ho s).1, (ho s).2]
  | _ => rfl

theorem applyDecrement_update {o : Operand} (ho : CommutesAt u o) (s : State) :
    applyDecrement o (u s) = (applyDecrement o s).mapState u := by
  cases o with
  | reg8 r => simp [applyDecrement, (ho s).1, (ho s).2]
  | reg16 rr => simp [applyDecrement, (ho s).1, (ho s).2]
  | _ => rfl

variable (hu : HiddenUpdate u)
include hu

theorem byteAt_update (s : State) (a : Word) : (u s).byteAt a = s.byteAt a := by
  simp [State.byteAt, hu.mem]

theorem resolveByte_update {o : Operand} (ho : CommutesAt u o) (s : State) :
    resolveByte o (u s) = (resolveByte o s).mapState u := by
  cases o with
  | reg8 r => simp [(ho s).1]
  | reg16 rr => simp [(ho s).1, byteAt_update hu]
  | immediate8 => simp [byteAt_update hu, hu.getPc, hu.setPc]
  | immediate16 => rfl

theorem applyMove_update {src dest : Operand} (hsrc : CommutesAt u src)
    (hdest : CommutesAt u dest) (s : State) :
    applyMove src dest (u s) = (applyMove src dest s).mapState u := by
  cases dest with
  | reg8 r =>
    simp only [applyMove, resolveByte_update hu hsrc]
    exact andThen_mapState _ fun v s1 => by simp [(hdest s1).2]
  | reg16 rr =>
    simp only [applyMove, resolveByte_update hu hsrc]
    exact andThen_mapState _ fun v s1 => by simp [(hdest s1).1, hu.mem, hu.setMem]
  | _ => rfl

theorem execute_update {k : Kind} (hk : ∀ o ∈ k.operands, CommutesAt u o) (s : State) :
    execute k (u s) = (execute k s).mapState u := by
  cases k with
  | load src dest fu =>
    have hsrc := hk src (by simp [Kind.operands])
    have hdest := hk dest (by simp [Kind.operands])
    cases fu with
    | none => exact applyMove_update hu hsrc hdest s
    | some fu =>
      simp only [execute, applyLoad_some, applyMove_update hu hsrc hdest]
      exact andThen_mapState _ fun _ s1 => applyFollowup_update hsrc hdest fu s1
  | increment o => exact applyIncrement_update (hk o (by simp [Kind.operands])) s
  | decrement o => exact applyDecrement_update (hk o (by simp [Kind.operands])) s
  | noOp => rfl
  | halt => simp [execute, applyHalt, hu.setRun]
  | arithmetic => rfl

theorem finish_update (r : Res Unit) : finish (r.mapState u) = mapNext u (finish r) := by
  cases r <;> simp [mapNext, hu.setRun]

/-- The step of a state updated by `u` is the step of the state, updated by `u`, when `u` commutes with
every register the instruction at `PC` names. -/
theorem step_update {s : State}
    (hs : ∀ i, decode (s.byteAt s.pc) = .ok i → ∀ o ∈ i.kind.operands, CommutesAt u o) :
    step (u s) = mapNext u (step s) := by
  cases hr : s.run with
  | running =>
    rw [step_of_running hr, step_of_running ((hu.run s).trans hr), byteAt_update hu, hu.getPc,
      hu.setPc]
    cases hd : decode (s.byteAt s.pc) with
    | ok i => simp only [exec_eq_finish_execute, execute_update hu (hs i hd), finish_update hu]
    | error e => simp [mapNext, hu.setRun]
  | halted => simp [step, hu.run, hr, mapNext]
  | faulted e => simp [step, hu.run, hr, mapNext]

end

/-! ### Predicates that an instruction's writes keep -/

/-- The state a result leaves, after a failure too, satisfies `P`. -/
def Res.Leaves {α : Type} (P : State → Prop) : Res α → Prop
  | .ok _ s => P s
  | .fail _ s => P s

@[simp] theorem leaves_ok {α : Type} (P : State → Prop) (v : α) (s : State) :
    (Res.ok v s).Leaves P ↔ P s := .rfl

@[simp] theorem leaves_fail {α : Type} (P : State → Prop) (e : Failure) (s : State) :
    (Res.fail e s : Res α).Leaves P ↔ P s := .rfl

theorem andThen_leaves {α β : Type} {P Q : State → Prop} {r : Res α} {k : α → State → Res β}
    (hr : r.Leaves P) (hk : ∀ v s, P s → (k v s).Leaves Q) (hfail : ∀ s, P s → Q s) :
    (andThen r k).Leaves Q := by
  cases r with
  | ok v s => exact hk v s hr
  | fail e s => exact hfail s hr

/-- A write to the register that `o` names keeps `P`. -/
def WriteKeeps (P : State → Prop) : Operand → Prop
  | .reg8 r => ∀ s v, P s → P (s.setReg8 r v)
  | .reg16 rr => ∀ s v, P s → P (s.setReg16 rr v)
  | .immediate8 => True
  | .immediate16 => True

/-- `P` is kept by what an instruction may do beside writing the registers it names: advance `PC`,
store a byte, end the run. -/
structure FrameClosed (P : State → Prop) : Prop where
  pc : WriteKeeps P (.reg16 .pc)
  mem : ∀ s (a : Word) v, P s → P (s.setMem (s.mem.write a.toNat v))
  run : ∀ s r, P s → P (s.setRun r)

section
variable {P : State → Prop}

theorem applyFollowup_leaves {src dest : Operand} (h : WriteKeeps P (followupTarget src dest))
    (fu : Followup) {s : State} (hs : P s) : (applyFollowup src dest fu s).Leaves P := by
  have hreg {rr} (hrr : WriteKeeps P (.reg16 rr)) : P (followupReg16 fu rr s) := by
    cases fu <;> exact hrr s _ hs
  cases dest with
  | reg16 rr => simpa using hreg h
  | _ =>
    cases src with
    | reg16 rr => exact hreg h
    | _ => exact hs

theorem applyIncrement_leaves {o : Operand} (ho : WriteKeeps P o) {s : State} (hs : P s) :
    (applyIncrement o s).Leaves P := by
  cases o with
  | reg8 r => exact ho s _ hs
  | reg16 rr => exact ho s _ hs
  | _ => exact hs

theorem applyDecrement_leaves {o : Operand} (ho : WriteKeeps P o) {s : State} (hs : P s) :
    (applyDecrement o s).Leaves P := by
  cases o with
  | reg8 r => exact ho s _ hs
  | reg16 rr => exact ho s _ hs
  | _ => exact hs

theorem finish_next {r : Res Unit} {t : State} (hr : r.Leaves P)
    (hrun : ∀ s x, P s → P (s.setRun x)) (h : finish r = .next t) : P t := by
  cases r with
  | ok u s => cases h; exact hr
  | fail e s => cases h; exact hrun s _ hr

variable (hP : FrameClosed P)
include hP

theorem resolveByte_leaves (o : Operand) {s : State} (hs : P s) : (resolveByte o s).Leaves P := by
  cases o with
  | immediate8 => simpa using hP.pc s _ hs
  | _ => simpa [resolveByte] using hs

theorem applyMove_leaves (src : Operand) {dest : Operand}
    (h : ∀ o ∈ dest.moveTarget, WriteKeeps P o) {s : State} (hs : P s) :
    (applyMove src dest s).Leaves P := by
  cases dest with
  | reg8 r =>
    have hr : WriteKeeps P (.reg8 r) := h _ (by simp [Operand.moveTarget])
    exact andThen_leaves (resolveByte_leaves hP src hs) (fun v s1 h1 => hr s1 v h1) fun _ => id
  | reg16 rr =>
    exact andThen_leaves (resolveByte_leaves hP src hs)
      (fun v s1 h1 => by simpa using hP.mem s1 _ v h1) fun _ => id
  | _ => exact hs

/-- An instruction keeps every predicate that its writes keep, whether it completes or fails. -/
theorem execute_leaves {k : Kind} (hk : ∀ o ∈ k.written, WriteKeeps P o) {s : State} (hs : P s) :
    (execute k s).Leaves P := by
  cases k with
  | load src dest fu =>
    cases fu with
    | none => exact applyMove_leaves hP src hk hs
    | some fu =>
      obtain ⟨htarget, hmove⟩ := List.forall_mem_cons.mp hk
      exact andThen_leaves (applyMove_leaves hP src hmove hs)
        (fun _ _ h1 => applyFollowup_leaves htarget fu h1) fun _ => id
  | increment o => exact applyIncrement_leaves (hk o (by simp [Kind.written])) hs
  | decrement o => exact applyDecrement_leaves (hk o (by simp [Kind.written])) hs
  | noOp => exact hs
  | halt => exact hP.run s _ hs
  | arithmetic => exact hs

/-- A step keeps every predicate that the writes of the instruction at `PC` keep. -/
theorem step_keeps {s t : State}
    (hk : ∀ i, decode (s.byteAt s.pc) = .ok i → ∀ o ∈ i.kind.written, WriteKeeps P o)
    (hs : P s) (h : step s = .next t) : P t := by
  have hfetched := hP.pc s (s.pc + 1#16) hs
  obtain ⟨-, ⟨i, hd, hexec⟩ | ⟨e, -, rfl⟩⟩ := step_next_cases h
  · rw [exec_eq_finish_execute] at hexec
    exact finish_next (execute_leaves hP (hk i hd) hfetched) hP.run hexec
  · exact hP.run _ _ hfetched

end

/-! ### `PC` -/

theorem applyMove_pc (src dest : Operand) (s : State) :
    (applyMove src dest s).Leaves fun t => t.pc = s.pc + loadFetches src dest := by
  cases dest <;> cases src <;> simp [applyMove, resolveByte, loadFetches]

theorem writeKeeps_pc {o : Operand} (ho : o ≠ .reg16 .pc) (x : Word) :
    WriteKeeps (fun t => t.pc = x) o := by
  cases o with
  | reg8 r => exact fun s v hs => (setReg8_pc s r v).trans hs
  | reg16 rr =>
    have hrr : rr ≠ .pc := fun h => ho (congrArg Operand.reg16 h)
    exact fun s v hs => by simpa [hrr] using hs
  | _ => trivial

/-- Executing advances `PC` by the bytes it fetches, when the instruction does not write `PC`. -/
theorem execute_pc {k : Kind} (hk : .reg16 .pc ∉ k.written) (s : State) :
    (execute k s).Leaves fun t => t.pc = s.pc + k.fetches := by
  have hkeeps (o) (ho : o ∈ k.written) := writeKeeps_pc (ne_of_mem_of_not_mem ho hk)
  cases k with
  | load src dest fu =>
    cases fu with
    | none => exact applyMove_pc src dest s
    | some fu =>
      exact andThen_leaves (applyMove_pc src dest s)
        (fun _ _ h1 => applyFollowup_leaves (hkeeps _ (by simp [Kind.written]) _) fu h1) fun _ => id
  | increment o =>
    exact applyIncrement_leaves (hkeeps o (by simp [Kind.written]) _) (by simp [Kind.fetches])
  | decrement o =>
    exact applyDecrement_leaves (hkeeps o (by simp [Kind.written]) _) (by simp [Kind.fetches])
  | _ => simp [execute, applyNoOp, applyHalt, applyArithmetic, Kind.fetches]

/-! ### The two updates no instruction sees, or few do -/

theorem setF_hidden (v : Byte) : HiddenUpdate (fun s => s.setReg8 .f v) where
  getPc _ := rfl
  setPc _ _ := rfl
  mem _ := rfl
  setMem _ _ := rfl
  run _ := rfl
  setRun _ _ := rfl

theorem setF_commutesAt (v : Byte) {o : Operand} (ho : Reg8.f ∉ o.regs) :
    CommutesAt (fun s => s.setReg8 .f v) o := by
  cases o with
  | reg8 r =>
    cases r with
    | f => simp [Operand.regs] at ho
    | _ => exact fun _ => ⟨rfl, fun _ => rfl⟩
  | reg16 rr =>
    cases rr with
    | af => simp [Operand.regs, halves] at ho
    | _ => exact fun _ => ⟨rfl, fun _ => rfl⟩
  | _ => trivial

theorem setSp_hidden (v : Word) : HiddenUpdate (fun s => s.setReg16 .sp v) where
  getPc _ := rfl
  setPc _ _ := rfl
  mem _ := rfl
  setMem _ _ := rfl
  run _ := rfl
  setRun _ _ := rfl

theorem setSp_commutesAt (v : Word) {o : Operand} (ho : o ≠ .reg16 .sp) :
    CommutesAt (fun s => s.setReg16 .sp v) o := by
  cases o with
  | reg8 r => cases r <;> exact fun _ => ⟨rfl, fun _ => rfl⟩
  | reg16 rr =>
    cases rr with
    | sp => exact absurd rfl ho
    | _ => exact fun _ => ⟨rfl, fun _ => rfl⟩
  | _ => trivial

theorem step_setF (s : State) (v : Byte) :
    step (s.setReg8 .f v) = mapNext (fun t => t.setReg8 .f v) (step s) :=
  step_update (setF_hidden v) fun i _ o ho => setF_commutesAt v (f_notMem_operands i o ho)

/-- Setting `F` to the value it has changes nothing, so the next state has that value too. -/
theorem step_f {s t : State} (h : step s = .next t) : t.f = s.f := by
  have hset : step s = mapNext (fun t => t.setReg8 .f s.f) (step s) := step_setF s s.f
  have ht : t = t.setReg8 .f s.f := by simpa [h, mapNext] using hset
  calc t.f = (t.setReg8 .f s.f).f := congrArg State.f ht
    _ = s.f := rfl

/-! ### 8-bit registers -/

theorem getReg8_frameClosed (r : Reg8) (x : Byte) : FrameClosed fun t => t.getReg8 r = x where
  pc s v hs := (getReg8_setReg16_pc s v r).trans hs
  mem s _ _ hs := (getReg8_setMem s _ r).trans hs
  run s y hs := (getReg8_setRun s y r).trans hs

theorem writeKeeps_getReg8 {o : Operand} {r : Reg8} (ho : r ∉ o.regs) (x : Byte) :
    WriteKeeps (fun t => t.getReg8 r = x) o := by
  cases o with
  | reg8 q =>
    exact fun s v hs => (getReg8_setReg8_other s v (by simpa [Operand.regs] using ho)).trans hs
  | reg16 rr => exact fun s v hs => (getReg8_setReg16_of_notMem s v ho).trans hs
  | _ => trivial

/-! ### The obligations -/

/-- Settles O21: setting `F` commutes with every instruction, because none names `F` or `AF`; a step
that ignores `F` keeps it. -/
theorem flagsNeitherReadNorWritten : Obligations.FlagsNeitherReadNorWritten := by
  unfold Obligations.FlagsNeitherReadNorWritten
  refine fun s v => ⟨step_setF s v, fun t h => ?_, rfl, fun w => toNat_loByte w⟩
  have hf := step_f h
  simp [hf, State.flagZ, State.flagN, State.flagH, State.flagC]

/-- Settles O5, by the field lemmas of `setReg16` and the two bytes of a word. -/
theorem reg16WriteSplitsHalves : Obligations.Reg16WriteSplitsHalves := by
  unfold Obligations.Reg16WriteSplitsHalves
  refine fun s v => ⟨fun rr => ⟨getReg16_setReg16_same s rr v, sameRegsExcept_setReg16 s rr v,
    fun h => by simp [h], fun h => by simp [h], setReg16_mem s rr v, setReg16_run s rr v⟩, ?_⟩
  simp [toNat_hiByte, toNat_loByte]

/-- Settles O6: both are a write of the register read, plus or minus one. -/
theorem incrementDecrementWrap : Obligations.IncrementDecrementWrap := by
  unfold Obligations.IncrementDecrementWrap
  refine ⟨fun s r => ⟨?_, ?_, ?_, ?_, sameRegsExcept_setReg8 s r _, sameRegsExcept_setReg8 s r _⟩,
    fun s rr => ⟨?_, ?_, ?_, ?_, sameRegsExcept_setReg16 s rr _, sameRegsExcept_setReg16 s rr _⟩⟩
  all_goals simp [BitVec.toNat_add, BitVec.toNat_sub, Nat.add_comm]

/-- Settles O24: the opcode fetch advances `PC` by one and the instruction by what it fetches, which
the opcode tells; an unmatched byte is no two-byte opcode. -/
theorem pcAdvancesByLength : Obligations.PcAdvancesByLength := by
  unfold Obligations.PcAdvancesByLength
  intro s t h
  obtain ⟨-, ⟨i, hd, hexec⟩ | ⟨e, hd, rfl⟩⟩ := step_next_cases h
  · rw [exec_eq_finish_execute] at hexec
    have hpc := finish_next (execute_pc (pc_notMem_written i) _) (fun _ _ h1 => h1) hexec
    rw [fetches_of_instr, opcode_of_decode_eq hd] at hpc
    rw [hpc]
    split <;> simp [BitVec.toNat_add]
  · have hop : s.byteAt s.pc ∉ twoByteOpcodes := fun hmem => by
      simpa [hd, Except.isOk, Except.toBool] using decode_twoByteOpcodes_isOk _ hmem
    simp [hop, BitVec.toNat_add]

/-- Settles O26: setting `SP` commutes with every instruction that does not name `SP`. -/
theorem spReadOnlyByIncDecSp : Obligations.SpReadOnlyByIncDecSp := by
  unfold Obligations.SpReadOnlyByIncDecSp
  refine fun s v hinc hdec => step_update (setSp_hidden v) fun i hd o ho => setSp_commutesAt v ?_
  have hop := opcode_of_decode_eq hd
  exact operands_ne_sp i (hop ▸ hinc) (hop ▸ hdec) o ho

/-- Settles O27: an opcode that is no writer of `r` decodes to an instruction that writes no register
holding `r`. -/
theorem registersWrittenOnlyAsTabled : Obligations.RegistersWrittenOnlyAsTabled := by
  unfold Obligations.RegistersWrittenOnlyAsTabled
  refine fun s t r h hop => step_keeps (getReg8_frameClosed r _) (fun i hd o ho => ?_) rfl h
  have hi : i.opcode ∉ writers r := opcode_of_decode_eq hd ▸ hop
  exact writeKeeps_getReg8 (fun hr => hi (opcode_mem_writers i o ho r hr)) _

/-- Settles O1: reset lists no byte of memory and holds 0 in each register. -/
theorem resetValues : Obligations.ResetValues := by
  unfold Obligations.ResetValues
  exact ⟨fun r => by cases r <;> rfl, fun rr => by cases rr <;> rfl, fun _ => rfl, rfl⟩

/-- Settles O3, by the rules of `setReg8`. -/
theorem reg8WriteReadsBack : Obligations.Reg8WriteReadsBack := by
  unfold Obligations.Reg8WriteReadsBack
  exact fun s r v => ⟨getReg8_setReg8_same s r v, sameRegsExcept_setReg8 s r v, setReg8_sp s r v,
    setReg8_pc s r v, setReg8_mem s r v, setReg8_run s r v⟩

/-- Settles O4: a pair is its two bytes joined. -/
theorem pairsReadTheirHalves : Obligations.PairsReadTheirHalves := by
  unfold Obligations.PairsReadTheirHalves
  exact fun s => ⟨toNat_joinBytes _ _, toNat_joinBytes _ _, toNat_joinBytes _ _,
    toNat_joinBytes _ _⟩

end Sys2Proof.Machine
end
section
/-! PROOFS. Statements about memory (20_memory.md): which rows store a register; what a range reads as,
before and after a write; what a step at a storing opcode does, said once for the stores of a register
and once for `LD (HL),n`. -/

namespace Sys2Proof

/-! ### The rows that store a register -/

/-- The register that an instruction kind stores to memory and the register it addresses memory by;
`none` for a kind that stores no register. -/
def Kind.store : Kind → Option (Reg8 × Reg16)
  | .load (.reg8 r) (.reg16 rr) _ => some (r, rr)
  | _ => none

theorem Kind.eq_load_of_store {k : Kind} {r : Reg8} {rr : Reg16} (h : k.store = some (r, rr)) :
    ∃ fu, k = .load (.reg8 r) (.reg16 rr) fu := by
  unfold Kind.store at h
  split at h
  · next fu => cases h; exact ⟨fu, rfl⟩
  · cases h

theorem decode_isOk_of_storePair : ∀ op, (storePair op).isSome → (decode op).isOk := by decide

theorem storePair_ne_pc : ∀ op, storePair op ≠ some .pc := by decide

/-- An opcode of one byte stores through the address register of the row it belongs to. -/
theorem storePair_opcode (i : Instr) :
    i.opcode ∉ twoByteOpcodes → storePair i.opcode = i.kind.store.map Prod.snd := by
  cases i <;> decide

/-- The register stored is the one the row of `LD (HL),r` names, `A` for the other four (R130, R132,
R134, R136, R141). -/
theorem store_source (i : Instr) : ∀ p ∈ i.kind.store,
    (∃ row ∈ toHlRows, row.op = i.opcode ∧ p.1 = row.reg)
      ∨ (i.opcode ∈ [0x02#8, 0x12#8, 0x22#8, 0x32#8] ∧ p.1 = .a) := by
  cases i <;> decide

/-- A storing opcode of one byte decodes to a row that stores a register through the opcode's address
register. -/
theorem exists_store_of_storePair {op : Byte} {rr : Reg16} (h : storePair op = some rr)
    (hlen : op ∉ twoByteOpcodes) : ∃ i r, decode op = .ok i ∧ i.kind.store = some (r, rr) := by
  have hok : (decode op).isOk := decode_isOk_of_storePair op (by simp [h])
  cases hd : decode op with
  | error e => simp [hd, Except.isOk, Except.toBool] at hok
  | ok i =>
    have hop := opcode_of_decode_eq hd
    rw [← hop, storePair_opcode i (hop ▸ hlen)] at h
    obtain ⟨⟨r, rr⟩, hstore, rfl⟩ := Option.map_eq_some_iff.mp h
    exact ⟨i, r, rfl, hstore⟩

end Sys2Proof

namespace Sys2Proof.Machine

/-! ### Reading a range of memory -/

theorem readList_eq_map_range (m : Memory) (a n : Nat) :
    m.readList a n = (List.range n).map fun i => m.read (a + i) := by
  induction n generalizing a with
  | zero => rfl
  | succ n ih =>
    simp [Memory.readList, ih, List.range_succ_eq_map, Nat.add_assoc, Nat.add_comm 1,
      Function.comp_def]

@[simp] theorem length_readList (m : Memory) (a n : Nat) : (m.readList a n).length = n := by
  simp [readList_eq_map_range]

@[simp] theorem getElem_readList (m : Memory) (a n i : Nat) (h : i < (m.readList a n).length) :
    (m.readList a n)[i] = m.read (a + i) := by
  simp [readList_eq_map_range]

/-! ### Reading after the write of a range -/

theorem read_writeList_outside {m : Memory} {a b : Nat} {vs : List Byte}
    (h : b < a ∨ a + vs.length ≤ b) : (m.writeList a vs).read b = m.read b := by
  induction vs generalizing m a with
  | nil => rfl
  | cons v vs ih =>
    simp only [List.length_cons] at h
    exact (ih (by omega)).trans (read_write_other m v (by omega))

theorem read_writeList_inside {m : Memory} {a i : Nat} {vs : List Byte} (h : i < vs.length) :
    (m.writeList a vs).read (a + i) = vs[i] := by
  induction vs generalizing m a i with
  | nil => exact absurd h (Nat.not_lt_zero i)
  | cons v vs ih =>
    cases i with
    | zero => exact (read_writeList_outside (.inl a.lt_succ_self)).trans (read_write_same m a v)
    | succ i =>
      rw [← Nat.add_assoc, Nat.add_right_comm]
      exact ih (Nat.lt_of_succ_lt_succ h)

theorem readList_writeList (m : Memory) (a : Nat) (vs : List Byte) :
    (m.writeList a vs).readList a vs.length = vs :=
  List.ext_getElem (length_readList _ _ _) fun i _ h => by
    rw [getElem_readList, read_writeList_inside h]

/-! ### The access primitives in and out of bounds -/

theorem byteAt_add_ofNat {s : State} {addr : Word} {i : Nat} (h : addr.toNat + i < 65536) :
    s.byteAt (addr + BitVec.ofNat 16 i) = s.mem.read (addr.toNat + i) := by
  rw [State.byteAt, BitVec.toNat_add, BitVec.toNat_ofNat, Nat.add_mod_mod, Nat.mod_eq_of_lt h]

section
variable {addr : Word} {n : Nat} {bytes : List Byte} (s : State)

theorem memRead_of_le (h : addr.toNat + n ≤ Config.memSize) :
    memRead addr n s = .ok (s.mem.readList addr.toNat n) s :=
  ((memRead_cases addr n s).resolve_right fun hgt => Nat.not_lt.mpr h hgt.1).2

theorem memRead_of_gt (h : Config.memSize < addr.toNat + n) :
    memRead addr n s = .fail (.memoryOverflow addr n) s :=
  ((memRead_cases addr n s).resolve_left fun hle => Nat.not_le.mpr h hle.1).2

theorem memWrite_of_le (h : addr.toNat + bytes.length ≤ Config.memSize) :
    memWrite addr bytes s = .ok () (s.setMem (s.mem.writeList addr.toNat bytes)) :=
  ((memWrite_cases addr bytes s).resolve_right fun hgt => Nat.not_lt.mpr h hgt.1).2

theorem memWrite_of_gt (h : Config.memSize < addr.toNat + bytes.length) :
    memWrite addr bytes s = .fail (.memoryOverflow addr bytes.length) s :=
  ((memWrite_cases addr bytes s).resolve_left fun hle => Nat.not_le.mpr h hle.1).2

end

/-! ### One byte stored -/

theorem byteAt_of_mem_eq_write {s t : State} {a : Word} {v : Byte}
    (h : t.mem = s.mem.write a.toNat v) : t.byteAt a = v := by
  rw [State.byteAt, h, read_write_same]

/-- Storing the byte that is there already changes no byte. -/
theorem sameMemory_of_mem_eq_write_byteAt {s t : State} {a : Word}
    (h : t.mem = s.mem.write a.toNat (s.byteAt a)) : SameMemory s t := by
  intro b
  by_cases hb : b = a
  · rw [hb, byteAt_of_mem_eq_write h]
  · simpa only [State.byteAt, setMem_mem, h] using byteAt_write_other s (s.byteAt a) hb

/-! ### A step that stores -/

theorem getReg16_setReg16_pc (s : State) (v : Word) {rr : Reg16} (h : rr ≠ .pc) :
    (s.setReg16 .pc v).getReg16 rr = s.getReg16 rr := by
  cases rr <;> simp_all [State.getReg16]

@[simp] theorem applyMove_immediate8_reg16 (dest : Reg16) (s : State) :
    applyMove .immediate8 (.reg16 dest) s
      = .ok () ((s.setReg16 .pc (s.pc + 1#16)).setMem
          (s.mem.write ((s.setReg16 .pc (s.pc + 1#16)).getReg16 dest).toNat (s.byteAt s.pc))) := by
  simp [applyMove]

/-- Executing a store of a register writes its byte at the address register's value before the
followup, and leaves `PC` and the run state. -/
theorem execute_store {k : Kind} {r : Reg8} {rr : Reg16} (hk : k.store = some (r, rr))
    (hrr : rr ≠ .pc) (s : State) :
    ∃ t, execute k s = .ok () t ∧ t.mem = s.mem.write (s.getReg16 rr).toNat (s.getReg8 r)
      ∧ t.pc = s.pc ∧ t.run = s.run := by
  obtain ⟨fu, rfl⟩ := Kind.eq_load_of_store hk
  cases fu with
  | none => simp [execute]
  | some fu => cases fu <;> simp [execute, followupReg16, hrr]

/-- A step at a row that stores a register through `rr`. -/
theorem step_store {s : State} {i : Instr} {r : Reg8} {rr : Reg16} (hrun : s.run = .running)
    (hd : decode (s.byteAt s.pc) = .ok i) (hi : i.kind.store = some (r, rr)) (hrr : rr ≠ .pc) :
    ∃ t, step s = .next t ∧ t.mem = s.mem.write (s.getReg16 rr).toNat (s.getReg8 r)
      ∧ t.pc = s.pc + 1#16 ∧ t.run = .running := by
  obtain ⟨t, hexec, hmem, hpc, htrun⟩ := execute_store hi hrr (s.setReg16 .pc (s.pc + 1#16))
  refine ⟨t, ?_, ?_, ?_, ?_⟩
  · simp [step_of_running hrun, hd, exec_eq_finish_execute, hexec]
  · simpa [getReg16_setReg16_pc s _ hrr, getReg8_setReg16_pc] using hmem
  · simpa using hpc
  · simpa [hrun] using htrun

/-- A step at `LD (HL),n` (R143): the immediate is read before the store. -/
theorem step_storeImmediate {s : State} (hrun : s.run = .running)
    (hop : s.byteAt s.pc = 0x36#8) :
    ∃ t, step s = .next t
      ∧ t.mem = s.mem.write (s.getReg16 .hl).toNat (s.byteAt (s.pc + 1#16))
      ∧ t.pc = s.pc + 2#16 ∧ t.run = .running := by
  have hd : decode (s.byteAt s.pc) = .ok .ldMemHlN := by rw [hop]; rfl
  simp [step_of_running hrun, hd, exec_eq_finish_execute, Instr.kind, execute,
    getReg16_setReg16_pc, hrun, BitVec.add_assoc]

/-! ### The obligations -/

/-- Settles O29: the store leaves `PC` at the address it wrote, so the next fetch reads that byte. -/
theorem nextFetchSeesStore : Obligations.NextFetchSeesStore := by
  unfold Obligations.NextFetchSeesStore
  refine ⟨fun s rr hrun hpair hlen haddr => ?_, fun s hrun hop haddr => ?_⟩
  · obtain ⟨i, r, hd, hi⟩ := exists_store_of_storePair hpair hlen
    have hrr : rr ≠ .pc := fun h => storePair_ne_pc _ (h ▸ hpair)
    obtain ⟨t, hstep, hmem, hpc, htrun⟩ := step_store hrun hd hi hrr
    rw [haddr] at hmem
    refine ⟨t, s.getReg8 r, hstep, htrun, hpc, ?_, ?_⟩
    · rw [← opcode_of_decode_eq hd]
      obtain ⟨row, hrow, hop, hr⟩ | ⟨hop, hr⟩ := store_source i (r, rr) hi
      · exact .inl ⟨row, hrow, hop, congrArg s.getReg8 hr⟩
      · exact .inr ⟨hop, congrArg s.getReg8 hr⟩
    · rw [fetchByte_eq, hpc, byteAt_of_mem_eq_write hmem, BitVec.add_assoc]
      rfl
  · obtain ⟨t, hstep, hmem, hpc, htrun⟩ := step_storeImmediate hrun hop
    rw [haddr] at hmem
    refine ⟨t, hstep, htrun, hpc, ?_⟩
    rw [fetchByte_eq, hpc, byteAt_of_mem_eq_write hmem, BitVec.add_assoc]
    rfl

/-- Settles O30: the byte stored is the byte that is there. -/
theorem immediateReadBeforeStore : Obligations.ImmediateReadBeforeStore := by
  unfold Obligations.ImmediateReadBeforeStore
  intro s hrun hop haddr
  obtain ⟨t, hstep, hmem, hpc, -⟩ := step_storeImmediate hrun hop
  have hsame : SameMemory s t := sameMemory_of_mem_eq_write_byteAt (haddr ▸ hmem)
  exact ⟨t, hstep, hsame _, hsame, hpc⟩

/-- Settles O7, by the bytes of `readList`: in bounds, `addr + i` does not wrap. -/
theorem readReturnsBytesInOrder : Obligations.ReadReturnsBytesInOrder := by
  unfold Obligations.ReadReturnsBytesInOrder
  refine fun s addr n => ⟨memRead_of_gt s, fun h => ⟨_, memRead_of_le s h, by simp, fun i hi => ?_⟩,
    readByte_eq addr s⟩
  rw [byteAt_add_ofNat (by omega), List.getElem?_eq_getElem (by simpa using hi), getElem_readList]

/-- Settles O8: what `writeList` reads as inside its range and outside it. -/
theorem writeIsAllOrNothing : Obligations.WriteIsAllOrNothing := by
  unfold Obligations.WriteIsAllOrNothing
  refine fun s addr bytes => ⟨memWrite_of_gt s, fun h => ⟨_, memWrite_of_le s h, rfl, fun i hi => ?_,
    fun b hb => read_writeList_outside hb⟩, fun v => ?_⟩
  · rw [byteAt_add_ofNat (by omega), List.getElem?_eq_getElem hi, setMem_mem,
      read_writeList_inside hi]
  · rw [writeByte_eq, memWrite_of_le s (bytes := [v]) (toNat_lt_memSize addr)]
    rfl

/-- Settles O9: reading back the range just written gives what was written. -/
theorem memoryRoundTrip : Obligations.MemoryRoundTrip := by
  unfold Obligations.MemoryRoundTrip
  refine fun s addr bytes => ⟨fun h => ⟨_, memWrite_of_le s h, ?_⟩,
    fun h => ⟨memWrite_of_gt s h, memRead_of_gt s h⟩⟩
  rw [memRead_of_le _ h, setMem_mem, readList_writeList]

end Sys2Proof.Machine
end
section
/-! PROOFS. Statements about the decoder and the encoder (30_encoding.md). Three facts carry them:
`decode` inverts `Instr.opcode`; `decodeKind` gives the kind of the row that `decode` gives; the bytes of
R83, and no others, fail. -/

namespace Sys2Proof

/-! ### The decoder inverts the opcode -/

theorem decode_opcode (i : Instr) : decode i.opcode = .ok i := by cases i <;> rfl

theorem decode_eq_ok_iff {op : Byte} {i : Instr} : decode op = .ok i ↔ i.opcode = op :=
  ⟨opcode_of_decode_eq, fun h => h ▸ decode_opcode i⟩

/-! ### The bytes of an encoding -/

theorem encode_getElem?_zero (i : Instr) (n : Byte) : (encode i n)[0]? = some i.opcode := by
  unfold encode
  split <;> rfl

theorem encode_getElem?_one {i : Instr} (h : i.length = 2) (n : Byte) :
    (encode i n)[1]? = some n := by
  simp [encode, h]

/-! ### The row and the kind agree -/

theorem kind_indirectRow : ∀ (p : BitVec 2) (q : BitVec 1),
    (indirectRow p q).kind =
      if q = 0#1 then .load (.reg8 .a) (.reg16 (rpiRegister p)) (rpiFollowup p)
      else .load (.reg16 (rpiRegister p)) (.reg8 .a) (rpiFollowup p) := by decide

theorem kind_incDecRow : ∀ (p : BitVec 2) (q : BitVec 1),
    (incDecRow p q).kind =
      if q = 0#1 then .increment (.reg16 (rp p)) else .decrement (.reg16 (rp p)) := by decide

/-- Off the one overlap of R79, the entry at y=6, z=6. -/
theorem kind_registerRow : ∀ y z : BitVec 3, ¬ (y = 6#3 ∧ z = 6#3) →
    (registerRow y z).kind = if y = z then .noOp else .load (rt8 z) (rt8 y) none := by decide

theorem kind_immediateRow : ∀ y : BitVec 3,
    (immediateRow y).kind = .load .immediate8 (rt8 y) none := by decide

/-- The two forms of R75 agree: the kind of a byte is the kind of its row, with the same failures. -/
theorem decodeKind_eq_map (op : Byte) : decodeKind op = (decode op).map Instr.kind := by
  unfold decodeKind decode
  split_ifs with hindirect hq hincDec hq hhalt hregister hyz himmediate hnop
  · exact congrArg Except.ok ((kind_indirectRow _ _).trans (if_pos hq)).symm
  · exact congrArg Except.ok ((kind_indirectRow _ _).trans (if_neg hq)).symm
  · exact congrArg Except.ok ((kind_incDecRow _ _).trans (if_pos hq)).symm
  · exact congrArg Except.ok ((kind_incDecRow _ _).trans (if_neg hq)).symm
  · rfl
  · have hkind := kind_registerRow _ _ fun h => hhalt ⟨hregister, h⟩
    exact congrArg Except.ok (hkind.trans (if_pos hyz)).symm
  · have hkind := kind_registerRow _ _ fun h => hhalt ⟨hregister, h⟩
    exact congrArg Except.ok (hkind.trans (if_neg hyz)).symm
  · exact congrArg Except.ok (kind_immediateRow _).symm
  · rfl
  · rfl

theorem decodeInstruction_eq_map (op : Byte) :
    decodeInstruction op = (decodeKind op).map fun k => ⟨k, Config.cycles op⟩ := by
  unfold decodeInstruction
  cases decodeKind op <;> rfl

/-! ### The opcode fields as numbers (R70) -/

theorem toNat_fieldX (op : Byte) : (fieldX op).toNat = op.toNat / 64 := by
  rw [fieldX, BitVec.extractLsb'_toNat, Nat.shiftRight_eq_div_pow]
  omega

theorem toNat_fieldY (op : Byte) : (fieldY op).toNat = op.toNat / 8 % 8 := by
  simp [fieldY, Nat.shiftRight_eq_div_pow]

theorem toNat_fieldZ (op : Byte) : (fieldZ op).toNat = op.toNat % 8 := by
  simp [fieldZ]

theorem unmatchedFailure_eq (op : Byte) : unmatchedFailure op = numericUnmatched op := by
  simp only [unmatchedFailure, numericUnmatched, Failure.unmatched.injEq, true_and,
    ← BitVec.toNat_inj, toNat_fieldX, toNat_fieldY, toNat_fieldZ, BitVec.toNat_ofNat, fieldP, fieldQ,
    BitVec.extractLsb'_toNat, Nat.shiftRight_eq_div_pow]
  omega

/-! ### The bytes that fail -/

/-- The bytes of R83 are those that no case of R75 takes. -/
theorem isUnmatched_iff (op : Byte) :
    IsUnmatched op ↔ ¬ (fieldX op = 0#2 ∧ fieldZ op = 2#3) ∧ ¬ (fieldX op = 0#2 ∧ fieldZ op = 3#3)
      ∧ fieldX op ≠ 1#2 ∧ ¬ (fieldX op = 0#2 ∧ fieldZ op = 6#3)
      ∧ ¬ (fieldX op = 0#2 ∧ fieldY op = 0#3 ∧ fieldZ op = 0#3) := by
  simp only [IsUnmatched, ne_eq, ← BitVec.toNat_inj, toNat_fieldX, toNat_fieldY, toNat_fieldZ,
    BitVec.toNat_ofNat]
  omega

theorem decode_of_isUnmatched {op : Byte} (h : IsUnmatched op) :
    decode op = .error (numericUnmatched op) := by
  obtain ⟨hindirect, hincDec, hregister, himmediate, hnop⟩ := (isUnmatched_iff op).mp h
  rw [decode, if_neg hindirect, if_neg hincDec, if_neg (fun hhalt => hregister hhalt.1),
    if_neg hregister, if_neg himmediate, if_neg hnop, unmatchedFailure_eq]

theorem exists_decode_of_not_isUnmatched {op : Byte} (h : ¬ IsUnmatched op) :
    ∃ i, decode op = .ok i := by
  rw [isUnmatched_iff] at h
  unfold decode
  split_ifs with hindirect hincDec hhalt hregister himmediate hnop
  case neg => exact absurd ⟨hindirect, hincDec, hregister, himmediate, hnop⟩ h
  all_goals exact ⟨_, rfl⟩

theorem decodeKind_of_isUnmatched {op : Byte} (h : IsUnmatched op) :
    decodeKind op = .error (numericUnmatched op) := by
  rw [decodeKind_eq_map, decode_of_isUnmatched h]
  rfl

/-! ### The rows of the opcode table -/

theorem rowDecodes_opcode (i : Instr) : RowDecodes i.opcode i i.kind i.length := by
  refine ⟨decode_opcode i, ?_, rfl, rfl, rfl⟩
  rw [decodeKind_eq_map, decode_opcode]
  rfl

theorem length_eq (i : Instr) : i.length = if i.opcode ∈ twoByteOpcodes then 2 else 1 := by
  cases i <;> rfl

theorem opcode_kind_of_mem_opcodeMap : ∀ row ∈ opcodeMap,
    row.instr.opcode = row.op ∧ row.instr.kind = row.kind := by decide

theorem opcode_mem_opcodeMap (i : Instr) : i.opcode ∈ opcodeMap.map OpcodeRow.op := by
  cases i <;> decide

theorem opcode_kind_length_of_mem_selfRows : ∀ row ∈ selfRows,
    row.instr.opcode = row.op ∧ row.instr.kind = .noOp ∧ row.instr.length = 1 := by decide

theorem isUnmatched_of_notMem_opcodeMap {op : Byte} (h : op ∉ opcodeMap.map OpcodeRow.op) :
    IsUnmatched op := by
  by_contra hmatched
  obtain ⟨i, hi⟩ := exists_decode_of_not_isUnmatched hmatched
  exact h (opcode_of_decode_eq hi ▸ opcode_mem_opcodeMap i)

/-! ### The obligations -/

/-- Settles O13: the first byte of an encoding is the row's opcode, which the decoder inverts. -/
theorem decodeEncodeAgree : Obligations.DecodeEncodeAgree := by
  unfold Obligations.DecodeEncodeAgree
  intro op i n
  rw [decode_eq_ok_iff, List.head?_eq_getElem?, encode_getElem?_zero, Option.some_inj]

/-- Settles O12: the bytes of R83 fail with their fields, and every other byte has a row, so a
failure is one of those. -/
theorem unmatchedBytesByField : Obligations.UnmatchedBytesByField := by
  unfold Obligations.UnmatchedBytesByField
  refine fun op => ⟨decode_of_isUnmatched, exists_decode_of_not_isUnmatched, fun e he => ?_⟩
  by_cases h : IsUnmatched op
  · exact (Except.error.inj ((decode_of_isUnmatched h).symm.trans he)).symm
  · obtain ⟨i, hi⟩ := exists_decode_of_not_isUnmatched h
    exact nomatch hi.symm.trans he

/-- Settles O11: each row decodes as every row does, and a byte outside the map is unmatched, since
what it decoded to would have its row there. -/
theorem opcodeMapComplete : Obligations.OpcodeMapComplete := by
  unfold Obligations.OpcodeMapComplete
  refine ⟨fun row hrow => ?_, by decide, by decide, fun op hop => ?_⟩
  · obtain ⟨hop, hkind⟩ := opcode_kind_of_mem_opcodeMap row hrow
    rw [← hop, ← hkind, ← length_eq]
    exact rowDecodes_opcode row.instr
  · have h := isUnmatched_of_notMem_opcodeMap hop
    exact ⟨decode_of_isUnmatched h, decodeKind_of_isUnmatched h⟩

/-- Settles O10: the tables and the matched cases are read off index by index, at most 64 each; a byte
outside the cases is one of R83. -/
theorem decoderCaseAnalysis : Obligations.DecoderCaseAnalysis := by
  unfold Obligations.DecoderCaseAnalysis
  refine ⟨rfl, rfl, rfl, by decide, by decide, by decide, rfl,
    fun op hnop hregister hx0 => decodeKind_of_isUnmatched ?_, decodeInstruction_eq_map⟩
  have hne : op.toNat ≠ 0 := fun h => hnop (BitVec.eq_of_toNat_eq h)
  unfold IsUnmatched
  omega

/-- Settles O15: the kind decoded is the row's. -/
theorem decodedCarriesKindAndCycles : Obligations.DecodedCarriesKindAndCycles := by
  unfold Obligations.DecodedCarriesKindAndCycles
  intro op i hd
  rw [decodeInstruction_eq_map, decodeKind_eq_map, hd]
  rfl

end Sys2Proof

namespace Sys2Proof.Machine

/-! ### The step at an encoded instruction -/

/-- At a row's opcode the step is that row's meaning after the opcode fetch (R100). -/
theorem step_of_opcode {s : State} {i : Instr} (hrun : s.run = .running)
    (hop : s.byteAt s.pc = i.opcode) : step s = exec i (afterFetch s) := by
  rw [step_of_running hrun, hop, decode_opcode]
  rfl

theorem exec_of_noOp {i : Instr} (h : i.kind = .noOp) (s : State) : exec i s = .next s := by
  rw [exec_eq_finish_execute, h]
  rfl

/-! ### The obligations on the step -/

/-- Settles O17: the byte at `PC` is the row's opcode, and the byte after it the immediate. -/
theorem encodedBytesRun : Obligations.EncodedBytesRun := by
  unfold Obligations.EncodedBytesRun
  intro s i n hrun hbytes
  have hop := hbytes 0 _ (encode_getElem?_zero i n)
  refine ⟨step_of_opcode hrun (by simpa using hop), fun hlen => ?_⟩
  have hn : s.byteAt (s.pc + 1#16) = n := hbytes 1 _ (encode_getElem?_one hlen n)
  calc resolveByte .immediate8 (afterFetch s)
    _ = .ok (s.byteAt (s.pc + 1#16)) (s.setReg16 .pc (s.pc + 1#16 + 1#16)) :=
      resolveByte_immediate8 (afterFetch s)
    _ = .ok n (s.setReg16 .pc (s.pc + 2#16)) := by rw [hn, BitVec.add_assoc]; rfl

/-- Settles O32: the row's kind is `NoOp`, which leaves the state the opcode fetch made. -/
theorem loadRegisterFromItself : Obligations.LoadRegisterFromItself := by
  unfold Obligations.LoadRegisterFromItself
  intro row hrow
  obtain ⟨hop, hkind, hlen⟩ := opcode_kind_length_of_mem_selfRows row hrow
  refine ⟨?_, exec_of_noOp hkind, fun s hrun hbyte => ?_⟩
  · rw [← hop, ← hkind, ← hlen]
    exact rowDecodes_opcode row.instr
  · exact (step_of_opcode hrun (hbyte.trans hop.symm)).trans (exec_of_noOp hkind _)

end Sys2Proof.Machine
end
section
/-! PROOFS. Statements about the step, `run()` and the executor (40_execution.md). What `Execute` does
on a well-formed kind, to the run state and to memory, is said once for every kind; with the decoder's
facts it tells the next run state of a step, and by induction on the number of steps that of a run. -/

namespace Sys2Proof

/-! ### The kinds the decoder produces (R116) -/

theorem wellFormed_kind (i : Instr) : i.kind.wellFormed = true := by cases i <;> rfl

theorem wellFormed_of_decodeKind {op : Byte} {k : Kind} (h : decodeKind op = .ok k) :
    k.wellFormed = true := by
  rw [decodeKind_eq_map] at h
  cases hd : decode op with
  | ok i =>
    rw [hd] at h
    cases h
    exact wellFormed_kind i
  | error e =>
    rw [hd] at h
    cases h

theorem kind_eq_halt_iff (i : Instr) : i.kind = .halt ↔ i.opcode = 0x76#8 := by
  cases i <;> decide

/-- The register that an instruction kind addresses memory by when it stores. -/
def Kind.storeAddress : Kind → Option Reg16
  | .load _ (.reg16 rr) _ => some rr
  | _ => none

theorem storeAddress_kind (i : Instr) : i.kind.storeAddress = storePair i.opcode := by
  cases i <;> rfl

end Sys2Proof

namespace Sys2Proof.Machine

/-! ### A well-formed kind completes (R116) -/

theorem exists_resolveByte_eq_ok {o : Operand} (h : o.isByteSource = true) (s : State) :
    ∃ v t, resolveByte o s = .ok v t := by
  cases o with
  | reg8 r => exact ⟨_, _, resolveByte_reg8 r s⟩
  | reg16 rr => exact ⟨_, _, resolveByte_reg16 rr s⟩
  | immediate8 => exact ⟨_, _, resolveByte_immediate8 s⟩
  | immediate16 => cases h

/-- The write of a load to a register, once its source is resolved. -/
theorem applyMove_reg8_of_resolveByte {src : Operand} {s t : State} {v : Byte}
    (h : resolveByte src s = .ok v t) (r : Reg8) :
    applyMove src (.reg8 r) s = .ok () (t.setReg8 r v) := by
  simp [applyMove, h]

/-- The write of a load to memory: the address is read after the source is resolved (D4). -/
theorem applyMove_reg16_of_resolveByte {src : Operand} {s t : State} {v : Byte}
    (h : resolveByte src s = .ok v t) (rr : Reg16) :
    applyMove src (.reg16 rr) s = .ok () (t.setMem (t.mem.write (t.getReg16 rr).toNat v)) := by
  simp [applyMove, h]

theorem exists_applyMove_eq_ok {src dest : Operand} (hdest : dest.isDestination = true)
    (hsrc : src.isByteSource = true) (s : State) : ∃ t, applyMove src dest s = .ok () t := by
  obtain ⟨v, t, h⟩ := exists_resolveByte_eq_ok hsrc s
  cases dest with
  | reg8 r => exact ⟨_, applyMove_reg8_of_resolveByte h r⟩
  | reg16 rr => exact ⟨_, applyMove_reg16_of_resolveByte h rr⟩
  | _ => cases hdest

theorem exists_applyFollowup_eq_ok {src dest : Operand}
    (h : dest.isReg16 = true ∨ src.isReg16 = true) (fu : Followup) (s : State) :
    ∃ t, applyFollowup src dest fu s = .ok () t := by
  cases dest with
  | reg16 rr => exact ⟨_, applyFollowup_dest src rr fu s⟩
  | _ =>
    cases src with
    | reg16 rr => exact ⟨_, rfl⟩
    | _ => simp [Operand.isReg16] at h

/-- A followup runs in the state the write left. -/
theorem applyLoad_some_of_none {src dest : Operand} {s t : State}
    (h : applyLoad src dest none s = .ok () t) (fu : Followup) :
    applyLoad src dest (some fu) s = applyFollowup src dest fu t := by
  rw [applyLoad_none] at h
  simp [h]

theorem exists_execute_eq_ok {k : Kind} (hk : k.wellFormed = true) (s : State) :
    ∃ t, execute k s = .ok () t := by
  cases k with
  | load src dest fu =>
    simp only [Kind.wellFormed, Bool.and_eq_true, Bool.or_eq_true] at hk
    obtain ⟨⟨hdest, hsrc⟩, htarget⟩ := hk
    obtain ⟨t, hmove⟩ := exists_applyMove_eq_ok hdest hsrc s
    cases fu with
    | none => exact ⟨t, hmove⟩
    | some fu =>
      simp only [execute, applyLoad_some_of_none hmove]
      exact exists_applyFollowup_eq_ok (by simpa using htarget) fu t
  | increment o =>
    cases o with
    | reg16 rr => exact ⟨_, rfl⟩
    | _ => cases hk
  | decrement o =>
    cases o with
    | reg16 rr => exact ⟨_, rfl⟩
    | _ => cases hk
  | noOp => exact ⟨_, rfl⟩
  | halt => exact ⟨_, rfl⟩
  | arithmetic => cases hk

/-! ### The run state -/

theorem writeKeeps_run (x : RunState) (o : Operand) : WriteKeeps (fun t => t.run = x) o := by
  cases o with
  | reg8 r => exact fun s v hs => (setReg8_run s r v).trans hs
  | reg16 rr => exact fun s v hs => (setReg16_run s rr v).trans hs
  | _ => trivial

theorem applyMove_run (src dest : Operand) (s : State) :
    (applyMove src dest s).Leaves fun t => t.run = s.run := by
  cases dest <;> cases src <;> simp [applyMove, resolveByte]

/-- Of the kinds only `Halt` writes the run state (R112). -/
theorem execute_run (k : Kind) (s : State) :
    (execute k s).Leaves fun t => t.run = if k = .halt then .halted else s.run := by
  cases k with
  | load src dest fu =>
    cases fu with
    | none => exact applyMove_run src dest s
    | some fu =>
      exact andThen_leaves (applyMove_run src dest s)
        (fun _ _ h1 => applyFollowup_leaves (writeKeeps_run _ _) fu h1) fun _ => id
  | increment o => exact applyIncrement_leaves (writeKeeps_run _ o) rfl
  | decrement o => exact applyDecrement_leaves (writeKeeps_run _ o) rfl
  | _ => rfl

/-- A row's instruction completes in every state; `HALT` halts and every other row leaves the run
state (R105, R112). -/
theorem exec_run (i : Instr) (s : State) :
    ∃ t, exec i s = .next t ∧ t.run = if i.opcode = 0x76#8 then .halted else s.run := by
  obtain ⟨t, ht⟩ := exists_execute_eq_ok (wellFormed_kind i) s
  have hrun := execute_run i.kind s
  rw [ht, leaves_ok] at hrun
  refine ⟨t, ?_, by simpa only [kind_eq_halt_iff] using hrun⟩
  rw [exec_eq_finish_execute, ht, finish_ok]

/-- From a running state the core steps, and the opcode alone tells the next run state (R105). -/
theorem step_run {s : State} (hrun : s.run = .running) :
    ∃ t, step s = .next t ∧ t.run =
      if s.byteAt s.pc = 0x76#8 then .halted
      else if IsUnmatched (s.byteAt s.pc) then .faulted (numericUnmatched (s.byteAt s.pc))
      else .running := by
  rw [step_of_running hrun]
  by_cases hop : IsUnmatched (s.byteAt s.pc)
  · have hhalt : s.byteAt s.pc ≠ 0x76#8 := fun h => absurd (h ▸ hop) (by decide)
    rw [decode_of_isUnmatched hop, if_neg hhalt, if_pos hop]
    exact ⟨_, rfl, rfl⟩
  · obtain ⟨i, hd⟩ := exists_decode_of_not_isUnmatched hop
    obtain ⟨t, hexec, ht⟩ := exec_run i (s.setReg16 .pc (s.pc + 1#16))
    rw [opcode_of_decode_eq hd, setReg16_run, hrun] at ht
    rw [hd, if_neg hop]
    exact ⟨t, hexec, ht⟩

/-- A run state in which a run that began in `Running` can stand: `ReachableRun` with the opcode of the
fault unmatched. -/
def RunFromRunning (r : RunState) : Prop :=
  r = .running ∨ r = .halted ∨ ∃ op, IsUnmatched op ∧ r = .faulted (numericUnmatched op)

theorem reachableRun_of_runFromRunning {r : RunState} (h : RunFromRunning r) : ReachableRun r :=
  h.imp_right <| Or.imp_right fun ⟨op, _, hr⟩ => ⟨op, by rw [hr, unmatchedFailure_eq]⟩

theorem exists_step_runFromRunning {s : State} (hrun : s.run = .running) :
    ∃ t, step s = .next t ∧ RunFromRunning t.run := by
  obtain ⟨t, hstep, ht⟩ := step_run hrun
  refine ⟨t, hstep, ?_⟩
  split_ifs at ht with hhalt hop
  · exact .inr (.inl ht)
  · exact .inr (.inr ⟨_, hop, ht⟩)
  · exact .inl ht

/-! ### Runs (R103) -/

theorem runFor_succ_of_next {s t : State} (h : step s = .next t) (k : Nat) :
    runFor (k + 1) s = runFor k t := by
  simp only [runFor, h]

theorem runFor_of_ne_running {s : State} (h : s.run ≠ .running) (k : Nat) : runFor k s = s := by
  cases k with
  | zero => rfl
  | succ k =>
    cases hs : step s with
    | next t => exact absurd (step_next_cases hs).1 h
    | fault r => simp only [runFor, hs]
    | refused r => simp only [runFor, hs]

theorem runFor_runFromRunning {s : State} (hrun : s.run = .running) (k : Nat) :
    RunFromRunning (runFor k s).run := by
  induction k generalizing s with
  | zero => exact .inl hrun
  | succ k ih =>
    obtain ⟨t, hstep, ht⟩ := exists_step_runFromRunning hrun
    rw [runFor_succ_of_next hstep]
    by_cases htrun : t.run = .running
    · exact ih htrun
    · rwa [runFor_of_ne_running htrun]

theorem runFor_add (k j : Nat) (s : State) : runFor (k + j) s = runFor j (runFor k s) := by
  induction k generalizing s with
  | zero => rw [Nat.zero_add]; rfl
  | succ k ih =>
    by_cases hrun : s.run = .running
    · obtain ⟨t, hstep, -⟩ := step_run hrun
      rw [Nat.add_right_comm, runFor_succ_of_next hstep, runFor_succ_of_next hstep, ih]
    · simp only [runFor_of_ne_running hrun]

/-- Two numbers of steps after which the run has ended give the same state: it stands after their
sum too. -/
theorem returns_unique {s t u : State} (ht : Returns s t) (hu : Returns s u) : u = t := by
  obtain ⟨k, rfl, hk⟩ := ht
  obtain ⟨j, rfl, hj⟩ := hu
  calc runFor j s
    _ = runFor (j + k) s := by rw [runFor_add, runFor_of_ne_running hj]
    _ = runFor k s := by rw [Nat.add_comm, runFor_add, runFor_of_ne_running hk]

/-! ### `SP` and memory -/

/-- Setting `SP` to the value it has changes nothing, so the next state has that value too, unless the
instruction names `SP`. -/
theorem step_sp {s t : State} (hinc : s.byteAt s.pc ≠ 0x33#8) (hdec : s.byteAt s.pc ≠ 0x3B#8)
    (h : step s = .next t) : t.sp = s.sp := by
  have hset : step s = mapNext (fun t => t.setReg16 .sp s.sp) (step s) :=
    spReadOnlyByIncDecSp s s.sp hinc hdec
  have ht : t = t.setReg16 .sp s.sp := by simpa [h, mapNext] using hset
  calc t.sp = (t.setReg16 .sp s.sp).sp := congrArg State.sp ht
    _ = s.sp := rfl

theorem writeKeeps_byteAt (a : Word) (v : Byte) (o : Operand) :
    WriteKeeps (fun t => t.byteAt a = v) o := by
  cases o with
  | reg8 r => exact fun s w hs => (byteAt_setReg8 s r w a).trans hs
  | reg16 rr => exact fun s w hs => (byteAt_setReg16 s rr w a).trans hs
  | _ => trivial

/-- Resolving a source moves `PC` at most. -/
theorem resolveByte_frame (o : Operand) (s : State) : (resolveByte o s).Leaves fun t =>
    (∀ rr, rr ≠ .pc → t.getReg16 rr = s.getReg16 rr) ∧ SameMemory s t := by
  cases o with
  | immediate8 =>
    rw [resolveByte_immediate8, leaves_ok]
    exact ⟨fun rr hrr => getReg16_setReg16_pc s _ hrr, fun a => byteAt_setReg16 s .pc _ a⟩
  | _ => simp [resolveByte, SameMemory]

theorem applyMove_byteAt {src dest : Operand} {s : State} {a : Word}
    (h : ∀ rr, dest = .reg16 rr → rr ≠ .pc ∧ s.getReg16 rr ≠ a) :
    (applyMove src dest s).Leaves fun t => t.byteAt a = s.byteAt a := by
  cases dest with
  | reg8 r =>
    refine andThen_leaves (resolveByte_frame src s) (fun v s1 h1 => ?_) fun s1 h1 => h1.2 a
    simpa using h1.2 a
  | reg16 rr =>
    obtain ⟨hpc, hne⟩ := h rr rfl
    refine andThen_leaves (resolveByte_frame src s) (fun v s1 h1 => ?_) fun s1 h1 => h1.2 a
    obtain ⟨hreg, hmem⟩ := h1
    rw [writeByte_eq, leaves_ok, hreg rr hpc, byteAt_write_other s1 v hne.symm]
    exact hmem a
  | _ => rfl

/-- Executing keeps every byte but the one its kind stores to, when the address is no `PC`. -/
theorem execute_byteAt {k : Kind} {s : State} {a : Word}
    (h : ∀ rr, k.storeAddress = some rr → rr ≠ .pc ∧ s.getReg16 rr ≠ a) :
    (execute k s).Leaves fun t => t.byteAt a = s.byteAt a := by
  cases k with
  | load src dest fu =>
    have hmove : (applyMove src dest s).Leaves fun t => t.byteAt a = s.byteAt a :=
      applyMove_byteAt fun rr hdest => h rr (by rw [hdest]; rfl)
    cases fu with
    | none => exact hmove
    | some fu =>
      exact andThen_leaves hmove
        (fun _ _ h1 => applyFollowup_leaves (writeKeeps_byteAt _ _ _) fu h1) fun _ => id
  | increment o => exact applyIncrement_leaves (writeKeeps_byteAt _ _ o) rfl
  | decrement o => exact applyDecrement_leaves (writeKeeps_byteAt _ _ o) rfl
  | _ => rfl

/-! ### Operands and followups -/

@[simp] theorem setReg16_setReg16_same (s : State) (rr : Reg16) (v w : Word) :
    (s.setReg16 rr v).setReg16 rr w = s.setReg16 rr w := by
  cases rr <;> rfl

theorem resolveWord_immediate16 (s : State) :
    resolveWord .immediate16 s =
      .ok (joinBytes (s.byteAt (s.pc + 1#16)) (s.byteAt s.pc)) (s.setReg16 .pc (s.pc + 2#16)) := by
  have hpc : s.pc + 1#16 + 1#16 = s.pc + 2#16 := BitVec.add_assoc ..
  simp [resolveWord, hpc]

theorem followupReg16_eq_setReg16 (fu : Followup) (rr : Reg16) (s : State) :
    followupReg16 fu rr s = s.setReg16 rr
      (if fu = .increment16 then s.getReg16 rr + 1#16 else s.getReg16 rr - 1#16) := by
  cases fu <;> rfl

/-! ### The obligations -/

/-- Settles O19: a next state comes from `Running` only, and from there the core always steps. -/
theorem stepExistsOnlyWhenRunning : Obligations.StepExistsOnlyWhenRunning := by
  unfold Obligations.StepExistsOnlyWhenRunning
  refine fun s => ⟨⟨fun ⟨t, h⟩ => (step_next_cases h).1, fun hrun => ?_⟩, fun h => ?_, fun e h => ?_⟩
  · obtain ⟨t, hstep, -⟩ := step_run hrun
    exact ⟨t, hstep⟩
  · simp only [step, h]
  · simp only [step, h]

/-- Settles O23: a run from `Running` stays in `RunFromRunning`, and one from a terminal state does not
move. -/
theorem decodedKindsNeverFail : Obligations.DecodedKindsNeverFail := by
  unfold Obligations.DecodedKindsNeverFail
  refine ⟨fun _ _ => wellFormed_of_decodeKind, fun _ s hk => exists_execute_eq_ok hk s,
    fun n s h => ?_⟩
  by_cases hrun : s.run = .running
  · exact reachableRun_of_runFromRunning (runFor_runFromRunning hrun n)
  · rwa [runFor_of_ne_running hrun]

/-- Settles O25: the two opcodes that name `SP` run as their rows say; every other step ignores `SP`
and so keeps it. -/
theorem spChangesOnlyByIncDecSp : Obligations.SpChangesOnlyByIncDecSp := by
  unfold Obligations.SpChangesOnlyByIncDecSp
  intro s t h
  have hrun := (step_next_cases h).1
  split_ifs with hinc hdec
  · rw [step_of_opcode (i := .incSp) hrun hinc] at h
    cases h
    rfl
  · rw [step_of_opcode (i := .decSp) hrun hdec] at h
    cases h
    rfl
  · exact step_sp hinc hdec h

/-- Settles O28: the address register the opcode tells is the one its row stores by, and the opcode
fetch leaves it as it was. -/
theorem memoryChangesOnlyAtStore : Obligations.MemoryChangesOnlyAtStore := by
  unfold Obligations.MemoryChangesOnlyAtStore
  intro s t a h haddr
  obtain ⟨-, ⟨i, hd, hexec⟩ | ⟨e, -, rfl⟩⟩ := step_next_cases h
  · rw [exec_eq_finish_execute] at hexec
    have hstore : ∀ rr, i.kind.storeAddress = some rr →
        rr ≠ .pc ∧ (s.setReg16 .pc (s.pc + 1#16)).getReg16 rr ≠ a := fun rr hrr => by
      rw [storeAddress_kind, opcode_of_decode_eq hd] at hrr
      have hpc : rr ≠ .pc := fun hpc => storePair_ne_pc _ (hpc ▸ hrr)
      exact ⟨hpc, by rw [getReg16_setReg16_pc s _ hpc]; exact haddr rr hrr⟩
    have hbyte := finish_next (execute_byteAt hstore) (fun _ _ h1 => h1) hexec
    simpa using hbyte
  · simp

/-- Settles O49: two byte fetches, the low byte first. -/
theorem resolveWordByKind : Obligations.ResolveWordByKind := by
  unfold Obligations.ResolveWordByKind
  exact fun s => ⟨fun _ => rfl, ⟨_, resolveWord_immediate16 s, toNat_joinBytes _ _⟩,
    fun _ => rfl, rfl⟩

/-- Settles O50: the destination's kind is examined before `resolveByte` runs, its address after. -/
theorem loadChecksDestinationFirst : Obligations.LoadChecksDestinationFirst := by
  unfold Obligations.LoadChecksDestinationFirst
  refine fun s src fu => ⟨?_, ?_, fun r => ?_, fun rr => ?_,
    fun dest _ _ h => applyMove_reg8_of_resolveByte h dest,
    fun rr v t h => ⟨_, applyMove_reg16_of_resolveByte h rr, rfl, byteAt_write_same t _ v,
      fun _ hb => byteAt_write_other t v hb⟩⟩
  all_goals cases fu <;> rfl

/-- Settles O51: the followup runs in the state the write left, on the register it takes as its
target. -/
theorem followupTarget_holds : Obligations.FollowupTarget := by
  unfold Obligations.FollowupTarget
  refine fun s t src fu => ⟨fun rr h => ?_, fun r rr h => ?_, fun r hsrc h => ?_⟩
  · rw [applyLoad_some_of_none h, applyFollowup_dest, followupReg16_eq_setReg16]
  · rw [applyLoad_some_of_none h, applyFollowup_src, followupReg16_eq_setReg16]
  · rw [applyLoad_some_of_none h]
    obtain rfl | ⟨r', rfl⟩ := hsrc <;> rfl

/-- Settles O54: a run that has left `Running` no longer moves, and before that the invariant
`RunFromRunning` holds. -/
theorem runEndsHaltedOrUnmatched : Obligations.RunEndsHaltedOrUnmatched := by
  unfold Obligations.RunEndsHaltedOrUnmatched
  refine ⟨fun k s h => runFor_of_ne_running h k, fun s t hrun ht => ?_⟩
  have ⟨k, hk, hend⟩ := ht
  have hinv : RunFromRunning t.run := hk ▸ runFor_runFromRunning hrun k
  exact ⟨hinv.resolve_left hend, runFor_of_ne_running hend, fun _ => returns_unique ht⟩

/-- Settles O16: the three cases of `step` in the run state `Running`. -/
theorem stepRunsDecodedInstruction : Obligations.StepRunsDecodedInstruction := by
  unfold Obligations.StepRunsDecodedInstruction
  refine fun s hrun => ⟨fetchByte_eq s, fun i hd => ?_, fun e hd => ?_⟩
  · rw [step_of_running hrun, hd]
    rfl
  · rw [step_of_running hrun, hd]
    rfl

/-- Settles O48, by the rule of each operand kind. -/
theorem resolveByteByKind : Obligations.ResolveByteByKind := by
  unfold Obligations.ResolveByteByKind
  exact fun s => ⟨fun r => resolveByte_reg8 r s, fun rr => resolveByte_reg16 rr s,
    resolveByte_immediate8 s, rfl⟩

/-- Settles O52: each operand kind is one arm of the executor. -/
theorem incrementDecrementByKind : Obligations.IncrementDecrementByKind := by
  unfold Obligations.IncrementDecrementByKind
  refine fun s => ⟨fun _ => ⟨rfl, rfl⟩, fun _ => ⟨rfl, rfl⟩, fun o ho => ?_⟩
  obtain rfl | rfl := ho <;> exact ⟨rfl, rfl⟩

/-- Settles O53: the decoder's kinds are well-formed, and the reserved `Arithmetic` is not. -/
theorem otherKindsExecute : Obligations.OtherKindsExecute := by
  unfold Obligations.OtherKindsExecute
  exact fun s => ⟨rfl, rfl, rfl, fun op h => absurd (wellFormed_of_decodeKind h) (by decide)⟩

end Sys2Proof.Machine
end
section
/-! PROOFS. Statements about the loads (41_loads.md). A row's meaning is `Execute` of what it decodes to;
what a load then does depends on its destination alone, once its source is resolved: a register takes the
byte, or the byte at the address does. Each of these is said once, without a followup and with one. -/

namespace Sys2Proof

/-! ### What the rows decode to -/

/-- The opcode, the kind and the length of a row tell everything about how it decodes. -/
theorem rowDecodes_iff {op : Byte} {i : Instr} {k : Kind} {len : Nat} :
    RowDecodes op i k len ↔ i.opcode = op ∧ i.kind = k ∧ i.length = len := by
  refine ⟨fun ⟨_, _, hkind, hop, hlen⟩ => ⟨hop, hkind, hlen⟩, ?_⟩
  rintro ⟨rfl, rfl, rfl⟩
  exact rowDecodes_opcode i

theorem rowDecodes_moveRows : ∀ row ∈ moveRows,
    RowDecodes row.op row.instr (.load (.reg8 row.src) (.reg8 row.dest) none) 1 := by
  simp only [rowDecodes_iff]
  decide

theorem rowDecodes_fromHlRows : ∀ row ∈ fromHlRows,
    RowDecodes row.op row.instr (.load (.reg16 .hl) (.reg8 row.reg) none) 1 := by
  simp only [rowDecodes_iff]
  decide

theorem rowDecodes_toHlRows : ∀ row ∈ toHlRows,
    RowDecodes row.op row.instr (.load (.reg8 row.reg) (.reg16 .hl) none) 1 := by
  simp only [rowDecodes_iff]
  decide

theorem rowDecodes_immediateRows : ∀ row ∈ immediateRows,
    RowDecodes row.op row.instr (.load .immediate8 (.reg8 row.reg) none) 2 := by
  simp only [rowDecodes_iff]
  decide

theorem rowDecodes_storePairRows : ∀ row ∈ storePairRows,
    RowDecodes row.op row.instr (.load (.reg8 .a) (.reg16 row.pair) none) 1 := by
  simp only [rowDecodes_iff]
  decide

theorem rowDecodes_loadPairRows : ∀ row ∈ loadPairRows,
    RowDecodes row.op row.instr (.load (.reg16 row.pair) (.reg8 .a) none) 1 := by
  simp only [rowDecodes_iff]
  decide

theorem src_ne_dest_of_mem_moveRows : ∀ row ∈ moveRows, row.src ≠ row.dest := by decide

end Sys2Proof

namespace Sys2Proof.Machine

/-! ### What a load does once its source is resolved -/

@[simp] theorem followupReg16_mem (fu : Followup) (rr : Reg16) (s : State) :
    (followupReg16 fu rr s).mem = s.mem := by
  rw [followupReg16_eq_setReg16, setReg16_mem]

@[simp] theorem byteAt_followupReg16 (fu : Followup) (rr : Reg16) (s : State) (a : Word) :
    (followupReg16 fu rr s).byteAt a = s.byteAt a := by
  rw [followupReg16_eq_setReg16, byteAt_setReg16]

section
variable {op : Byte} {i : Instr} {k : Kind} {len : Nat} {src : Operand} {fu : Followup} {r : Reg8}
  {rr : Reg16} {s t : State} {v : Byte}

theorem exec_of_execute (h : RowDecodes op i k len) (hexec : execute k s = .ok () t) :
    exec i s = .next t := by
  obtain ⟨-, hkind, -⟩ := rowDecodes_iff.mp h
  rw [exec_eq_finish_execute, hkind, hexec, finish_ok]

theorem exec_load_reg8 (h : RowDecodes op i (.load src (.reg8 r) none) len)
    (hsrc : resolveByte src s = .ok v t) : exec i s = .next (t.setReg8 r v) :=
  exec_of_execute h (applyMove_reg8_of_resolveByte hsrc r)

/-- The byte stored is the one resolved, at the address the register holds once the source is
resolved. -/
theorem exec_load_reg16 (h : RowDecodes op i (.load src (.reg16 rr) none) len)
    (hsrc : resolveByte src s = .ok v t) :
    ∃ u, exec i s = .next u ∧ u = t.setMem u.mem
      ∧ u.byteAt (t.getReg16 rr) = v ∧ SameMemoryExcept (t.getReg16 rr) t u :=
  ⟨_, exec_of_execute h (applyMove_reg16_of_resolveByte hsrc rr), rfl, byteAt_write_same t _ v,
    fun _ hb => byteAt_write_other t v hb⟩

/-- The followup runs in the state the move left. -/
theorem exec_load_followup {dest : Operand} {u : State}
    (h : RowDecodes op i (.load src dest (some fu)) len)
    (hmove : applyLoad src dest none s = .ok () t) (hfu : applyFollowup src dest fu t = .ok () u) :
    exec i s = .next u :=
  exec_of_execute h ((applyLoad_some_of_none hmove fu).trans hfu)

/-- A load through `rr` reads before the followup changes `rr`. -/
theorem exec_load_reg8_followup (h : RowDecodes op i (.load (.reg16 rr) (.reg8 r) (some fu)) len)
    (s : State) :
    exec i s = .next (followupReg16 fu rr (s.setReg8 r (s.byteAt (s.getReg16 rr)))) :=
  exec_load_followup h (applyMove_reg16_reg8 rr r s) (applyFollowup_src rr r fu _)

/-- A store through `rr` writes before the followup changes `rr`. -/
theorem exec_load_reg16_followup (h : RowDecodes op i (.load (.reg8 r) (.reg16 rr) (some fu)) len)
    (s : State) :
    ∃ u, exec i s = .next u ∧ u = followupReg16 fu rr (s.setMem u.mem)
      ∧ u.byteAt (s.getReg16 rr) = s.getReg8 r ∧ SameMemoryExcept (s.getReg16 rr) s u := by
  have hexec := exec_load_followup h (applyMove_reg8_reg16 r rr s) (applyFollowup_dest _ rr fu _)
  refine ⟨_, hexec, ?_, ?_, fun b hb => ?_⟩
  · rw [followupReg16_mem, setMem_mem]
  · rw [byteAt_followupReg16, byteAt_write_same]
  · rw [byteAt_followupReg16, byteAt_write_other s _ hb]

end

/-! ### The obligations -/

/-- Settles O31: the source is read as it was, and the write to another register keeps it. -/
theorem loadRegisterFromRegister : Obligations.LoadRegisterFromRegister := by
  unfold Obligations.LoadRegisterFromRegister
  intro row hrow
  have hdec := rowDecodes_moveRows row hrow
  exact ⟨hdec, fun s => ⟨exec_load_reg8 hdec (resolveByte_reg8 row.src s),
    getReg8_setReg8_other s _ (src_ne_dest_of_mem_moveRows row hrow)⟩⟩

/-- Settles O33: the source is resolved, through the old `HL`, before the register is written. -/
theorem loadRegisterFromHl : Obligations.LoadRegisterFromHl := by
  unfold Obligations.LoadRegisterFromHl
  intro row hrow
  have hdec := rowDecodes_fromHlRows row hrow
  exact ⟨hdec, fun s => exec_load_reg8 hdec (resolveByte_reg16 .hl s)⟩

/-- Settles O34: reading the register changes no state, so the store is to the state as it was. -/
theorem storeRegisterAtHl : Obligations.StoreRegisterAtHl := by
  unfold Obligations.StoreRegisterAtHl
  intro row hrow
  have hdec := rowDecodes_toHlRows row hrow
  exact ⟨hdec, fun s => exec_load_reg16 hdec (resolveByte_reg8 row.reg s)⟩

/-- Settles O35: the source is the byte fetched at `PC`. -/
theorem loadRegisterImmediate : Obligations.LoadRegisterImmediate := by
  unfold Obligations.LoadRegisterImmediate
  intro row hrow
  have hdec := rowDecodes_immediateRows row hrow
  exact ⟨hdec, fun s => exec_load_reg8 hdec (resolveByte_immediate8 s)⟩

/-- Settles O36: fetching the immediate moves `PC` alone, so `HL` and memory at the store are those
before the fetch. -/
theorem storeImmediateAtHl : Obligations.StoreImmediateAtHl := by
  unfold Obligations.StoreImmediateAtHl
  have hdec : RowDecodes 0b00110110#8 .ldMemHlN (.load .immediate8 (.reg16 .hl) none) 2 :=
    rowDecodes_opcode .ldMemHlN
  refine ⟨hdec, fun s => ?_⟩
  obtain ⟨t, hexec, ht, hbyte, hother⟩ := exec_load_reg16 hdec (resolveByte_immediate8 s)
  exact ⟨t, hexec, ht, hbyte, fun b hb => (hother b hb).trans (byteAt_setReg16 s .pc _ b)⟩

/-- Settles O37, as for the stores through `HL`. -/
theorem storeAThroughPair : Obligations.StoreAThroughPair := by
  unfold Obligations.StoreAThroughPair
  intro row hrow
  have hdec := rowDecodes_storePairRows row hrow
  exact ⟨hdec, fun s => exec_load_reg16 hdec (resolveByte_reg8 .a s)⟩

/-- Settles O38, as for the loads through `HL`. -/
theorem loadAThroughPair : Obligations.LoadAThroughPair := by
  unfold Obligations.LoadAThroughPair
  intro row hrow
  have hdec := rowDecodes_loadPairRows row hrow
  exact ⟨hdec, fun s => exec_load_reg8 hdec (resolveByte_reg16 row.pair s)⟩

/-- Settles O39: the store leaves `HL`, so the followup steps the old value. -/
theorem storeAThroughHlFollowup : Obligations.StoreAThroughHlFollowup := by
  unfold Obligations.StoreAThroughHlFollowup
  have hinc := rowDecodes_opcode .ldMemHlIncA
  have hdec := rowDecodes_opcode .ldMemHlDecA
  exact ⟨hinc, hdec, fun s => ⟨exec_load_reg16_followup hinc s, exec_load_reg16_followup hdec s⟩⟩

/-- Settles O40: `A` is no half of `HL`, so the followup steps the old value. -/
theorem loadAThroughHlFollowup : Obligations.LoadAThroughHlFollowup := by
  unfold Obligations.LoadAThroughHlFollowup
  have hinc := rowDecodes_opcode .ldAMemHlInc
  have hdec := rowDecodes_opcode .ldAMemHlDec
  exact ⟨hinc, hdec, fun s => ⟨exec_load_reg8_followup hinc s, exec_load_reg8_followup hdec s⟩⟩

end Sys2Proof.Machine
end
section
/-! PROOFS. Statements about the 16-bit increment and decrement (42_inc_dec16.md). The row's kind names
the register, `ExecInc` and `ExecDec` step that register, and how a step of a register wraps is R27. -/

namespace Sys2Proof

theorem rowDecodes_incRows : ∀ row ∈ incRows,
    RowDecodes row.op row.instr (.increment (.reg16 row.pair)) 1 := by
  simp only [rowDecodes_iff]
  decide

theorem rowDecodes_decRows : ∀ row ∈ decRows,
    RowDecodes row.op row.instr (.decrement (.reg16 row.pair)) 1 := by
  simp only [rowDecodes_iff]
  decide

end Sys2Proof

namespace Sys2Proof.Machine

/-- A `Reg16` operand is the register itself, not memory at its address (R110). -/
theorem execute_increment_reg16 (rr : Reg16) (s : State) :
    execute (.increment (.reg16 rr)) s = .ok () (s.incReg16 rr) := rfl

theorem execute_decrement_reg16 (rr : Reg16) (s : State) :
    execute (.decrement (.reg16 rr)) s = .ok () (s.decReg16 rr) := rfl

/-! ### The obligations -/

/-- Settles O41: the row is the register's increment, which wraps as R27 says. -/
theorem incrementPair : Obligations.IncrementPair := by
  unfold Obligations.IncrementPair
  intro row hrow
  have hdec := rowDecodes_incRows row hrow
  refine ⟨hdec, fun s => ?_⟩
  obtain ⟨hvalue, -, hframe, -⟩ := incrementDecrementWrap.2 s row.pair
  exact ⟨_, exec_of_execute hdec (execute_increment_reg16 row.pair s), hframe, hvalue⟩

/-- Settles O42: the row is the register's decrement, which wraps as R27 says. -/
theorem decrementPair : Obligations.DecrementPair := by
  unfold Obligations.DecrementPair
  intro row hrow
  have hdec := rowDecodes_decRows row hrow
  refine ⟨hdec, fun s => ?_⟩
  obtain ⟨-, hvalue, -, hframe, -⟩ := incrementDecrementWrap.2 s row.pair
  exact ⟨_, exec_of_execute hdec (execute_decrement_reg16 row.pair s), hframe, hvalue⟩

end Sys2Proof.Machine
end
section
/-! PROOFS. Statements about `NOP` and `HALT` (43_nop_halt.md): each one's step, and from it the run in a
memory that holds only `NOP`, and the run that `HALT` ends. -/

namespace Sys2Proof.Machine

/-! ### The steps -/

theorem step_of_nop {s : State} (hrun : s.run = .running) (hbyte : s.byteAt s.pc = 0x00#8) :
    step s = .next (s.setReg16 .pc (s.pc + 1#16)) :=
  (step_of_opcode (i := .nop) hrun hbyte).trans (exec_of_noOp rfl _)

theorem exec_halt (s : State) : exec .halt s = .next (s.setRun .halted) :=
  exec_of_execute (rowDecodes_opcode .halt) rfl

theorem step_of_halt {s : State} (hrun : s.run = .running) (hbyte : s.byteAt s.pc = 0x76#8) :
    step s = .next ((s.setReg16 .pc (s.pc + 1#16)).setRun .halted) :=
  (step_of_opcode (i := .halt) hrun hbyte).trans (exec_halt _)

/-! ### A run in a memory of zeros -/

/-- `NOP` stores nothing, so a memory of zeros holds `NOP` at the next `PC` too. -/
theorem runFor_of_byteAt_zero {s : State} (hrun : s.run = .running) (hmem : ∀ a, s.byteAt a = 0x00#8)
    (k : Nat) : runFor k s = s.setReg16 .pc (s.pc + BitVec.ofNat 16 k) := by
  induction k generalizing s with
  | zero =>
    rw [BitVec.add_zero]
    rfl
  | succ k ih =>
    have hpc : s.pc + 1#16 + BitVec.ofNat 16 k = s.pc + BitVec.ofNat 16 (k + 1) := by
      rw [BitVec.add_assoc, ← BitVec.ofNat_add, Nat.add_comm]
    have htail := ih (s := s.setReg16 .pc (s.pc + 1#16)) (by rw [setReg16_run, hrun])
      fun a => by rw [byteAt_setReg16, hmem]
    calc runFor (k + 1) s
      _ = runFor k (s.setReg16 .pc (s.pc + 1#16)) := runFor_succ_of_next (step_of_nop hrun (hmem _)) k
      _ = s.setReg16 .pc (s.pc + 1#16 + BitVec.ofNat 16 k) := by
        rw [htail, setReg16_setReg16_same, setReg16_pc, if_pos rfl]
      _ = s.setReg16 .pc (s.pc + BitVec.ofNat 16 (k + 1)) := by rw [hpc]

theorem runFor_reset (k : Nat) :
    runFor k State.reset = State.reset.setReg16 .pc (BitVec.ofNat 16 k) := by
  have hpc : State.reset.pc + BitVec.ofNat 16 k = BitVec.ofNat 16 k := BitVec.zero_add _
  rw [runFor_of_byteAt_zero rfl (fun _ => rfl), hpc]

/-! ### The obligations -/

/-- Settles O44: nothing is seeded, so memory is all `NOP`, and no number of steps leaves `Running`. -/
theorem unseededCoreNeverStops : Obligations.UnseededCoreNeverStops := by
  unfold Obligations.UnseededCoreNeverStops
  refine ⟨runFor_reset, fun t ⟨k, hk, hend⟩ => hend ?_⟩
  rw [← hk, runFor_reset, setReg16_run]
  rfl

/-- Settles O45: one step ends the run, and a step exists only in `Running`, so the
state it leaves has none. -/
theorem haltStopsTheCore : Obligations.HaltStopsTheCore := by
  unfold Obligations.HaltStopsTheCore
  refine ⟨rowDecodes_opcode .halt, exec_halt, fun s hrun hbyte => ?_⟩
  have hstep := step_of_halt hrun hbyte
  obtain ⟨-, hhalted, -⟩ := stepExistsOnlyWhenRunning ((s.setReg16 .pc (s.pc + 1#16)).setRun .halted)
  exact ⟨hstep, ⟨1, runFor_succ_of_next hstep 0, nofun⟩, hhalted rfl⟩

/-- Settles O43: the row's kind is `NoOp`, which leaves the state the opcode fetch made. -/
theorem nopDoesNothing : Obligations.NopDoesNothing := by
  unfold Obligations.NopDoesNothing
  exact ⟨rowDecodes_opcode .nop, exec_of_noOp rfl, fun _ => step_of_nop⟩

end Sys2Proof.Machine
end
section
/-! PROOFS. Statements about failures (60_exceptions.md): which opcode gives which run state, the state
that an unmatched opcode leaves, and how the host resumes from it. -/

namespace Sys2Proof

/-- No two rows share an opcode: the decoder tells them apart. -/
theorem opcode_injective : Function.Injective Instr.opcode := fun i _ h =>
  Except.ok.inj ((decode_opcode i).symm.trans (decode_eq_ok_iff.mpr h.symm))

theorem opcode_eq_halt_iff (i : Instr) : i.opcode = 0x76#8 ↔ i = .halt :=
  opcode_injective.eq_iff (b := .halt)

end Sys2Proof

namespace Sys2Proof.Machine

/-- Writing `PC` and the run state leaves every 8-bit register. -/
theorem sameRegsExcept_setReg16_pc_setRun (s : State) (pc : Word) (x : RunState) :
    SameRegsExcept [] s ((s.setReg16 .pc pc).setRun x) :=
  fun r _ => (getReg8_setRun _ x r).trans (getReg8_setReg16_pc s pc r)

/-- The step at an unmatched opcode raises the decoder's failure after the opcode fetch (R102, D3). -/
theorem step_of_isUnmatched {s : State} (hrun : s.run = .running) (hop : IsUnmatched (s.byteAt s.pc)) :
    step s = .next
      ((s.setReg16 .pc (s.pc + 1#16)).setRun (.faulted (numericUnmatched (s.byteAt s.pc)))) := by
  rw [step_of_running hrun, decode_of_isUnmatched hop]
  rfl

/-! ### The obligations -/

/-- Settles O22: of a step by the case on its opcode; of an instruction because every row's kind is
well-formed and completes, and only `Halt` writes the run state. -/
theorem runStateToldByOpcode : Obligations.RunStateToldByOpcode := by
  unfold Obligations.RunStateToldByOpcode
  refine ⟨fun s => step_run, fun i s => ?_⟩
  obtain ⟨t, hexec, hrun⟩ := exec_run i s
  exact ⟨t, hexec, by simpa only [opcode_eq_halt_iff] using hrun⟩

/-- Settles O18: raising the failure writes the run state alone, so the rest is as the opcode fetch
left it. -/
theorem unmatchedOpcodeFaults : Obligations.UnmatchedOpcodeFaults := by
  unfold Obligations.UnmatchedOpcodeFaults
  intro s hrun hop
  exact ⟨_, step_of_isUnmatched hrun hop, rfl, rfl, (BitVec.add_sub_cancel s.pc 1#16).symm,
    sameRegsExcept_setReg16_pc_setRun s _ _, rfl, rfl⟩

/-- Settles O55: the resumed state is running, and from there the core always steps. -/
theorem resumeRunsAgain : Obligations.ResumeRunsAgain := by
  unfold Obligations.ResumeRunsAgain
  intro s pc
  have hrun : (resume pc s).run = .running := rfl
  obtain ⟨t, hstep, -⟩ := step_run hrun
  exact ⟨rfl, hrun, sameRegsExcept_setReg16_pc_setRun s pc .running, rfl, rfl, t, hstep⟩

end Sys2Proof.Machine
end
section
/-! PROOFS. The invariant of memory and the frames of the instructions. What one `exec` leaves unchanged
follows from three things its kind tells: the registers it may write, the register it stores by, and
whether it is `Halt`. They are read off the rows of each family. -/

namespace Sys2Proof

/-! ### What the rows write -/

/-- The row ends no run, writes no `SP`, writes 8-bit registers only among `rs`, and stores by the
address register `addr`, or nowhere. -/
abbrev Instr.WritesOnly (i : Instr) (rs : List Reg8) (addr : Option Reg16) : Prop :=
  (∀ o ∈ i.kind.written, o.regs ⊆ rs) ∧ .reg16 .sp ∉ i.kind.written ∧ i.kind ≠ .halt
    ∧ i.kind.storeAddress = addr

theorem writesOnly_moveRows : ∀ row ∈ moveRows, row.instr.WritesOnly [row.dest] none := by decide

theorem writesOnly_selfRows : ∀ row ∈ selfRows, row.instr.WritesOnly [] none := by decide

theorem writesOnly_byteLoadRows : ∀ row ∈ fromHlRows ++ immediateRows,
    row.instr.WritesOnly [row.reg] none := by decide

theorem writesOnly_loadPairRows : ∀ row ∈ loadPairRows, row.instr.WritesOnly [.a] none := by decide

theorem writesOnly_followupLoads : ∀ i ∈ [Instr.ldAMemHlInc, .ldAMemHlDec],
    i.WritesOnly [.a, .h, .l] none := by decide

theorem kind_incDecRows : ∀ row ∈ incRows ++ decRows,
    row.instr.kind = .increment (.reg16 row.pair) ∨ row.instr.kind = .decrement (.reg16 row.pair) := by
  decide

theorem writesOnly_toHlRows : ∀ row ∈ toHlRows, row.instr.WritesOnly [] (some .hl) := by decide

theorem writesOnly_storePairRows : ∀ row ∈ storePairRows,
    row.instr.WritesOnly [] (some row.pair) := by decide

theorem writesOnly_followupStores : ∀ i ∈ [Instr.ldMemHlIncA, .ldMemHlDecA],
    i.WritesOnly [.h, .l] (some .hl) := by decide

end Sys2Proof

namespace Sys2Proof.Machine

/-! ### The canonical form of memory -/

theorem canonical_writeKeeps (o : Operand) : WriteKeeps Canonical o := by
  cases o with
  | reg8 r => exact fun s v hs => (congrArg Memory.wf (setReg8_mem s r v)).mpr hs
  | reg16 rr => exact fun s v hs => (congrArg Memory.wf (setReg16_mem s rr v)).mpr hs
  | _ => trivial

/-- Of what an instruction does only a store touches memory, and every address lies inside it. -/
theorem canonical_frameClosed : FrameClosed Canonical where
  pc := canonical_writeKeeps _
  mem _ a v hs := write_wf v (toNat_lt_memSize a) hs
  run _ _ hs := hs

/-! ### `SP` -/

theorem sp_frameClosed (x : Word) : FrameClosed fun t => t.sp = x where
  pc _ _ hs := hs
  mem _ _ _ hs := hs
  run _ _ hs := hs

theorem writeKeeps_sp {o : Operand} (ho : o ≠ .reg16 .sp) (x : Word) :
    WriteKeeps (fun t => t.sp = x) o := by
  cases o with
  | reg8 r => exact fun s v hs => (setReg8_sp s r v).trans hs
  | reg16 rr =>
    have hrr : rr ≠ .sp := fun h => ho (congrArg Operand.reg16 h)
    exact fun s v hs => by simpa [hrr] using hs
  | _ => trivial

/-! ### What one instruction leaves unchanged -/

section
variable {i : Instr} {s t : State} {rs : List Reg8} {rr : Reg16}

/-- An instruction keeps every predicate that its writes keep. -/
theorem exec_keeps {P : State → Prop} (hP : FrameClosed P)
    (hk : ∀ o ∈ i.kind.written, WriteKeeps P o) (hs : P s) (h : exec i s = .next t) : P t := by
  rw [exec_eq_finish_execute] at h
  exact finish_next (execute_leaves hP hk hs) hP.run h

theorem exec_sameRegsExcept (h : exec i s = .next t) (hi : ∀ o ∈ i.kind.written, o.regs ⊆ rs) :
    SameRegsExcept rs s t := fun r hr =>
  exec_keeps (getReg8_frameClosed r _)
    (fun o ho => writeKeeps_getReg8 (fun hmem => hr (hi o ho hmem)) _) rfl h

theorem exec_sp (h : exec i s = .next t) (hi : .reg16 .sp ∉ i.kind.written) : t.sp = s.sp :=
  exec_keeps (sp_frameClosed _) (fun _ ho => writeKeeps_sp (ne_of_mem_of_not_mem ho hi) _) rfl h

theorem exec_run_of_ne_halt (h : exec i s = .next t) (hi : i.kind ≠ .halt) : t.run = s.run := by
  obtain ⟨u, hu, hrun⟩ := exec_run i s
  cases h.symm.trans hu
  rw [hrun, if_neg (mt (kind_eq_halt_iff i).mpr hi)]

/-- No row stores by `PC`, so fetching an immediate leaves the address. -/
theorem exec_byteAt (h : exec i s = .next t) {a : Word}
    (ha : ∀ rr, i.kind.storeAddress = some rr → s.getReg16 rr ≠ a) : t.byteAt a = s.byteAt a := by
  have hstore : ∀ rr, i.kind.storeAddress = some rr → rr ≠ .pc ∧ s.getReg16 rr ≠ a := fun rr hrr =>
    ⟨fun hpc => storePair_ne_pc i.opcode (by rw [← storeAddress_kind, hrr, hpc]), ha rr hrr⟩
  rw [exec_eq_finish_execute] at h
  exact finish_next (execute_byteAt hstore) (fun _ _ h1 => h1) h

theorem exec_sameMemory (h : exec i s = .next t) (hi : i.kind.storeAddress = none) :
    SameMemory s t := fun _ =>
  exec_byteAt h fun _ hrr => nomatch hi.symm.trans hrr

theorem exec_sameMemoryExcept (h : exec i s = .next t) (hi : i.kind.storeAddress = some rr) :
    SameMemoryExcept (s.getReg16 rr) s t := fun a ha =>
  exec_byteAt h fun _ hrr => by
    cases hi.symm.trans hrr
    exact ha.symm

/-- The frame of an instruction that stores nothing. -/
theorem exec_frame_of_noStore (h : exec i s = .next t) (hi : i.WritesOnly rs none) :
    SameRegsExcept rs s t ∧ t.sp = s.sp ∧ t.run = s.run ∧ SameMemory s t := by
  obtain ⟨hregs, hsp, hhalt, hstore⟩ := hi
  exact ⟨exec_sameRegsExcept h hregs, exec_sp h hsp, exec_run_of_ne_halt h hhalt,
    exec_sameMemory h hstore⟩

/-- The frame of an instruction that stores by `rr`. -/
theorem exec_frame_of_store (h : exec i s = .next t) (hi : i.WritesOnly rs (some rr)) :
    SameRegsExcept rs s t ∧ t.sp = s.sp ∧ t.run = s.run
      ∧ SameMemoryExcept (s.getReg16 rr) s t := by
  obtain ⟨hregs, hsp, hhalt, hstore⟩ := hi
  exact ⟨exec_sameRegsExcept h hregs, exec_sp h hsp, exec_run_of_ne_halt h hhalt,
    exec_sameMemoryExcept h hstore⟩

/-- The frame of `INC rr` and `DEC rr`, which write `rr` alone. -/
theorem exec_frame_of_incDec (h : exec i s = .next t)
    (hi : i.kind = .increment (.reg16 rr) ∨ i.kind = .decrement (.reg16 rr)) :
    SameRegsExcept (halves rr) s t ∧ (rr ≠ .sp → t.sp = s.sp) ∧ t.run = s.run
      ∧ SameMemory s t := by
  obtain ⟨hwritten, hhalt, hstore⟩ :
      i.kind.written = [.reg16 rr] ∧ i.kind ≠ .halt ∧ i.kind.storeAddress = none := by
    obtain hk | hk := hi <;> simp [hk, Kind.written, Kind.storeAddress]
  exact ⟨exec_sameRegsExcept h (by simp [hwritten, Operand.regs]),
    fun hsp => exec_sp h (by simpa [hwritten] using hsp.symm), exec_run_of_ne_halt h hhalt,
    exec_sameMemory h hstore⟩

end

/-! ### The obligations -/

/-- Settles O20: registers and run state are no part of the invariant, and a store keeps it. -/
theorem stepKeepsCanonicalMemory : Obligations.StepKeepsCanonicalMemory := by
  unfold Obligations.StepKeepsCanonicalMemory
  exact fun s t hs h => step_keeps canonical_frameClosed (fun _ _ o _ => canonical_writeKeeps o) hs h

/-- Settles O46: what the rows of each family write, and that none of them stores. -/
theorem nonStoringFormsFrame : Obligations.NonStoringFormsFrame := by
  unfold Obligations.NonStoringFormsFrame
  intro s t
  exact ⟨fun row hrow h => exec_frame_of_noStore h (writesOnly_moveRows row hrow),
    fun row hrow h => exec_frame_of_noStore h (writesOnly_selfRows row hrow),
    fun row hrow h => exec_frame_of_noStore h (writesOnly_byteLoadRows row hrow),
    fun row hrow h => exec_frame_of_noStore h (writesOnly_loadPairRows row hrow),
    fun i hi h => exec_frame_of_noStore h (writesOnly_followupLoads i hi),
    fun row hrow h => exec_frame_of_incDec h (kind_incDecRows row hrow),
    fun h => exec_frame_of_noStore h (by decide),
    fun h => ⟨exec_sameRegsExcept h nofun, exec_sp h nofun, exec_sameMemory h rfl⟩⟩

/-- Settles O47: what the rows of each family write, and by which register they store. -/
theorem storingFormsFrame : Obligations.StoringFormsFrame := by
  unfold Obligations.StoringFormsFrame
  intro s t
  exact ⟨fun row hrow h => exec_frame_of_store h (writesOnly_toHlRows row hrow),
    fun row hrow h => exec_frame_of_store h (writesOnly_storePairRows row hrow),
    fun i hi h => exec_frame_of_store h (writesOnly_followupStores i hi),
    fun h => exec_frame_of_store h (by decide)⟩

/-- Settles O2: the memory at construction lists no byte. -/
theorem resetMemoryCanonical : Obligations.ResetMemoryCanonical := by
  unfold Obligations.ResetMemoryCanonical
  exact wf_nil

/-- Settles O14: each word is the opcode of its row, which the decoder inverts. -/
theorem specWordsDecode : Obligations.SpecWordsDecode := by
  unfold Obligations.SpecWordsDecode
  exact ⟨decode_opcode .ldMemBcA, decode_opcode .ldAMemHlInc, decode_opcode .ldBC,
    decode_opcode .ldBB, decode_opcode .ldBMemHl, decode_opcode .ldMemHlE, decode_opcode .ldBN,
    decode_opcode .ldMemHlN, decode_opcode .incBc, decode_opcode .decSp, decode_opcode .nop,
    decode_opcode .halt⟩

end Sys2Proof.Machine
end
